-- ==== Sys2Proof/Word.lean ====
section
/-! DEFINITION. The word types of the block: ticks, bytes, event words, wall-clock values, response data
(spec/00_scope.md R7, R8; spec/30_encoding.md R70, R74, R76, R77). -/

namespace Sys2Proof

/-- One of the five shift registers of a frame (R25). -/
abbrev Byte := BitVec 8

/-- A value of the wrapping tick counter, TICK_WIDTH = 32 (R7, D1). -/
abbrev Tick := BitVec 32

/-- One EV36 event word: `kind` in bits 35..32, `arg` in bits 31..0 (R70). -/
abbrev EventWord := BitVec 36

/-- A sample of the input bus `wall_now`, WALL_WIDTH = 64 (R7, R77, D12). -/
abbrev Wall := BitVec 64

/-- The `data` field of a response (R74). -/
abbrev Data := BitVec 128

end Sys2Proof
end

