-- ==== Sys2Proof/Config.lean ====
section
/-! DEFINITION. The configuration of one channel: everything spec/00_scope.md R6 and R7 calls a parameter and
spec/92_eei_decisions.md collects as open. It is fixed before reset is released (spec/70_reset_and_hazards.md R281)
and no step writes it. Every claim is about every configuration unless it says otherwise. -/

namespace Sys2Proof

/-- The configuration fields, with the reference value of each as its default (R6, R7).

`maxNoResponse` is MAX_NO_RESPONSE, `0 ≤ MAX_NO_RESPONSE ≤ 254` (R7 CM_WIDTH, D11).
`settleDelay`, `triggerLowMs` are the 31-bit durations that A_TIMER_START carries and `wdWindowMs` the 32-bit window
that A_WD_ARM carries (R6, R76); no rule branches on them.
`minTriggerIntervalS` is MIN_TRIGGER_INTERVAL in seconds, the host's obligation, read by no rule (R6, R209).
`hasPowerLine`, `hasIndicatorLine` are the two optional lines (R7, D19, D30).
`preambleStart` is PREAMBLE_START as an 8-bit two's-complement value (R7, D2), kept as a field as D2 asks.
`poisonOnHeader` is the optional parameter POISON_ON_HEADER (D6, U25), default false. -/
structure Config where
  maxNoResponse       : Fin 255   := 2
  settleDelay         : BitVec 31 := 2#31
  triggerLowMs        : BitVec 31 := 17#31
  wdWindowMs          : BitVec 32 := 200#32
  minTriggerIntervalS : Nat       := 2
  hasPowerLine        : Bool      := true
  hasIndicatorLine    : Bool      := true
  preambleStart       : BitVec 8  := 0xFE#8
  poisonOnHeader      : Bool      := false
  deriving DecidableEq, Repr

/-- The reference configuration: the defaults of R6 and R7, both optional lines present (the convention of
spec/95_test_vectors.md). -/
def Config.reference : Config := {}

/-- PREAMBLE_START is a negative value, range -128..-1 (R22, D2). The other ranges of R6 and R7 are in the types. -/
abbrev Config.wf (c : Config) : Prop := c.preambleStart.toInt < 0

/-- TICK_UNIT, nominally one microsecond, in nanoseconds (R7, D1). No rule reads it. -/
def Config.nominalTickUnitNs : Nat := 1000

/-- SETTLE_UNIT, OPEN: the length of one settling-delay unit in nanoseconds (D32, U24). No rule reads it. A free value. -/
opaque Config.settleUnitNs : Nat

/-- WALL_UNIT, OPEN: the length of one wall-clock count in nanoseconds (D12, U24). No rule reads it. A free value. -/
opaque Config.wallUnitNs : Nat

end Sys2Proof
end

