-- ==== Sys2Proof/Syntax.lean ====
section
/-! DEFINITION. The instructions of the block: its sixteen kinds of event and host operation, one constructor per row of
spec/opcode_table.json (spec/30_encoding.md R71, R80). Each keeps the 32 bits of its `arg` field, the reserved ones too,
so that no bit of a word is lost between decoding and encoding. -/

namespace Sys2Proof

/-- One event or host operation (R71). `fall` and `rise` carry the tick of the edge; the `arg` of every other kind is
reserved, should be 0 and is ignored by the block (R72). Kinds 0x7, 0xD, 0xE, 0xF are reserved kinds (R73). -/
inductive Instr where
  | fall (tick : Tick)
  | rise (tick : Tick)
  | timeout (arg : BitVec 32)
  | settleDone (arg : BitVec 32)
  | trigReq (arg : BitVec 32)
  | trigDone (arg : BitVec 32)
  | shutdown (arg : BitVec 32)
  | reserved7 (arg : BitVec 32)
  | rdHumidity (arg : BitVec 32)
  | rdTemperature (arg : BitVec 32)
  | rdStaleness (arg : BitVec 32)
  | rdDiagnostics (arg : BitVec 32)
  | rdStatus (arg : BitVec 32)
  | reservedD (arg : BitVec 32)
  | reservedE (arg : BitVec 32)
  | reservedF (arg : BitVec 32)
  deriving DecidableEq, Repr

/-- The name of a kind, without its argument (R71). -/
inductive Kind where
  | fall | rise | timeout | settleDone | trigReq | trigDone | shutdown | reserved7
  | rdHumidity | rdTemperature | rdStaleness | rdDiagnostics | rdStatus
  | reservedD | reservedE | reservedF
  deriving DecidableEq, Repr

/-- Who sends an event (R71, R248, R249): the hardware-access collaborator, which owns edges, watchdog and delay timer,
or the host (the acquisition loop). -/
inductive Agent where
  | collaborator
  | host
  deriving DecidableEq, Repr

/-- The kind of an instruction. -/
def Instr.kind : Instr → Kind
  | .fall _ => .fall
  | .rise _ => .rise
  | .timeout _ => .timeout
  | .settleDone _ => .settleDone
  | .trigReq _ => .trigReq
  | .trigDone _ => .trigDone
  | .shutdown _ => .shutdown
  | .reserved7 _ => .reserved7
  | .rdHumidity _ => .rdHumidity
  | .rdTemperature _ => .rdTemperature
  | .rdStaleness _ => .rdStaleness
  | .rdDiagnostics _ => .rdDiagnostics
  | .rdStatus _ => .rdStatus
  | .reservedD _ => .reservedD
  | .reservedE _ => .reservedE
  | .reservedF _ => .reservedF

/-- The 32 bits of the `arg` field: the tick of an edge, the reserved argument of any other kind (R70). -/
def Instr.arg : Instr → BitVec 32
  | .fall a | .rise a | .timeout a | .settleDone a | .trigReq a | .trigDone a | .shutdown a | .reserved7 a
  | .rdHumidity a | .rdTemperature a | .rdStaleness a | .rdDiagnostics a | .rdStatus a
  | .reservedD a | .reservedE a | .reservedF a => a

/-- The instruction of a kind with an argument. -/
def Instr.ofKind (k : Kind) (a : BitVec 32) : Instr :=
  match k with
  | .fall => .fall a
  | .rise => .rise a
  | .timeout => .timeout a
  | .settleDone => .settleDone a
  | .trigReq => .trigReq a
  | .trigDone => .trigDone a
  | .shutdown => .shutdown a
  | .reserved7 => .reserved7 a
  | .rdHumidity => .rdHumidity a
  | .rdTemperature => .rdTemperature a
  | .rdStaleness => .rdStaleness a
  | .rdDiagnostics => .rdDiagnostics a
  | .rdStatus => .rdStatus a
  | .reservedD => .reservedD a
  | .reservedE => .reservedE a
  | .reservedF => .reservedF a

/-- The agent that sends a kind (R71); no agent sends a reserved kind. -/
def Kind.agent : Kind → Option Agent
  | .fall | .rise | .timeout | .settleDone | .trigDone => some .collaborator
  | .trigReq | .shutdown | .rdHumidity | .rdTemperature | .rdStaleness | .rdDiagnostics | .rdStatus => some .host
  | .reserved7 | .reservedD | .reservedE | .reservedF => none

/-- Is the kind one of the two edges, the only kinds whose `arg` is an operand (R70)? -/
def Kind.isEdge : Kind → Bool
  | .fall | .rise => true
  | .timeout | .settleDone | .trigReq | .trigDone | .shutdown | .reserved7 | .rdHumidity | .rdTemperature
  | .rdStaleness | .rdDiagnostics | .rdStatus | .reservedD | .reservedE | .reservedF => false

/-- Is the kind reserved (R73)? -/
def Kind.isReserved : Kind → Bool
  | .reserved7 | .reservedD | .reservedE | .reservedF => true
  | .fall | .rise | .timeout | .settleDone | .trigReq | .trigDone | .shutdown | .rdHumidity | .rdTemperature
  | .rdStaleness | .rdDiagnostics | .rdStatus => false

/-- Is the kind one of the five host reads (R62)? -/
def Kind.isRead : Kind → Bool
  | .rdHumidity | .rdTemperature | .rdStaleness | .rdDiagnostics | .rdStatus => true
  | .fall | .rise | .timeout | .settleDone | .trigReq | .trigDone | .shutdown | .reserved7
  | .reservedD | .reservedE | .reservedF => false

end Sys2Proof
end

