-- ==== Sys2Proof/WellFormed.lean ====
section
/-! DEFINITION. What a conforming sender sends (spec/30_encoding.md R72, R73). The block itself accepts every word: these
checks are no premise of decoding or of a step. -/

namespace Sys2Proof

/-- The reserved `arg` of a kind that is no edge is 0 (R72: the sender should write 0). -/
def Instr.argClear (i : Instr) : Bool := i.kind.isEdge || i.arg == 0#32

/-- The kind is a defined one (R73). -/
def Instr.kindDefined (i : Instr) : Bool := !i.kind.isReserved

/-- The instruction is one that a conforming sender sends: a defined kind, its reserved bits clear (R72, R73). -/
def Instr.wellFormed (i : Instr) : Bool := i.argClear && i.kindDefined

end Sys2Proof
end

