-- ==== Sys2Proof/Decode.lean ====
section
/-! DEFINITION. Decoding and encoding of the EV36 event word (spec/30_encoding.md R70 to R73, R80). Decoding reads no state
and is total on 36-bit words: every word matches exactly one row of the table. The byte carrier at the end (five bytes,
lowest first) is the model's own convention for words that come from outside as numbers; the block has a 36-bit port and
no byte stream (notes/assumptions/3.md). -/

namespace Sys2Proof

/-- The code of a kind, bits 35..32 of its words (R71). -/
def Kind.code : Kind → BitVec 4
  | .fall => 0x0#4
  | .rise => 0x1#4
  | .timeout => 0x2#4
  | .settleDone => 0x3#4
  | .trigReq => 0x4#4
  | .trigDone => 0x5#4
  | .shutdown => 0x6#4
  | .reserved7 => 0x7#4
  | .rdHumidity => 0x8#4
  | .rdTemperature => 0x9#4
  | .rdStaleness => 0xA#4
  | .rdDiagnostics => 0xB#4
  | .rdStatus => 0xC#4
  | .reservedD => 0xD#4
  | .reservedE => 0xE#4
  | .reservedF => 0xF#4

/-- The kind of a code (R71); all sixteen codes have one. Only the code 15 reaches the last arm. -/
def kindOfCode (c : BitVec 4) : Kind :=
  match c.toNat with
  | 0 => .fall
  | 1 => .rise
  | 2 => .timeout
  | 3 => .settleDone
  | 4 => .trigReq
  | 5 => .trigDone
  | 6 => .shutdown
  | 7 => .reserved7
  | 8 => .rdHumidity
  | 9 => .rdTemperature
  | 10 => .rdStaleness
  | 11 => .rdDiagnostics
  | 12 => .rdStatus
  | 13 => .reservedD
  | 14 => .reservedE
  | _ => .reservedF

/-- `ev_word[35:32]` (R70). -/
def kindField (w : EventWord) : BitVec 4 := w.extractLsb' 32 4

/-- `ev_word[31:0]` (R70). -/
def argField (w : EventWord) : BitVec 32 := w.extractLsb' 0 32

/-- Decoding: `kind = ev_word[35:32]`, `tick` or reserved `arg = ev_word[31:0]` (R70, R71). -/
def decode (w : EventWord) : Instr := Instr.ofKind (kindOfCode (kindField w)) (argField w)

/-- Encoding: the kind's code above the 32 argument bits (R70, R71). -/
def encode (i : Instr) : EventWord := i.kind.code ++ i.arg

/-- One row of the opcode table: which words are the row's (R80). -/
structure OpcodeRow where
  kind  : Kind
  mask  : EventWord
  value : EventWord
  deriving DecidableEq, Repr

/-- Does the word match the row? -/
def OpcodeRow.matchesWord (r : OpcodeRow) (w : EventWord) : Bool := w &&& r.mask == r.value

/-- The sixteen rows of spec/opcode_table.json, in its order (R80). -/
def opcodeTable : List OpcodeRow := [
  ⟨.fall,          0xF00000000#36, 0x000000000#36⟩,
  ⟨.rise,          0xF00000000#36, 0x100000000#36⟩,
  ⟨.timeout,       0xF00000000#36, 0x200000000#36⟩,
  ⟨.settleDone,    0xF00000000#36, 0x300000000#36⟩,
  ⟨.trigReq,       0xF00000000#36, 0x400000000#36⟩,
  ⟨.trigDone,      0xF00000000#36, 0x500000000#36⟩,
  ⟨.shutdown,      0xF00000000#36, 0x600000000#36⟩,
  ⟨.reserved7,     0xF00000000#36, 0x700000000#36⟩,
  ⟨.rdHumidity,    0xF00000000#36, 0x800000000#36⟩,
  ⟨.rdTemperature, 0xF00000000#36, 0x900000000#36⟩,
  ⟨.rdStaleness,   0xF00000000#36, 0xA00000000#36⟩,
  ⟨.rdDiagnostics, 0xF00000000#36, 0xB00000000#36⟩,
  ⟨.rdStatus,      0xF00000000#36, 0xC00000000#36⟩,
  ⟨.reservedD,     0xF00000000#36, 0xD00000000#36⟩,
  ⟨.reservedE,     0xF00000000#36, 0xE00000000#36⟩,
  ⟨.reservedF,     0xF00000000#36, 0xF00000000#36⟩ ]

/-- Why bytes carry no event word. -/
inductive DecodeError where
  /-- Fewer than the five bytes that carry one 36-bit word. Raised by `decodeBytes` only; no step meets it (safe). -/
  | truncated (given : Nat)
  deriving DecidableEq, Repr

/-- The event word that five bytes carry, lowest byte first; the upper four bits of the fifth byte have no wire on
`ev_word[35:0]` and are not read (notes/assumptions/3.md). -/
def wordOfBytes (b0 b1 b2 b3 b4 : Byte) : EventWord := b4.extractLsb' 0 4 ++ (b3 ++ (b2 ++ (b1 ++ b0)))

/-- The first event of a byte string and the bytes after it, or the reason there is none. -/
def decodeBytes : List Byte → Except DecodeError (Instr × List Byte)
  | b0 :: b1 :: b2 :: b3 :: b4 :: rest => .ok (decode (wordOfBytes b0 b1 b2 b3 b4), rest)
  | short => .error (.truncated short.length)

/-- The five bytes of the table word `w` of `nbits` bits, lowest first; bits above `nbits` are 0. -/
def tableBytes (nbits w : Nat) : List Byte :=
  let v := w % 2 ^ nbits
  [BitVec.ofNat 8 v, BitVec.ofNat 8 (v / 2 ^ 8), BitVec.ofNat 8 (v / 2 ^ 16), BitVec.ofNat 8 (v / 2 ^ 24),
    BitVec.ofNat 8 (v / 2 ^ 32)]

/-- The event word that the host places where a step takes its next event: the table word `w` of `nbits` bits. -/
def tableEventWord (nbits w : Nat) : EventWord := BitVec.ofNat 36 (w % 2 ^ nbits)

/-- The instruction that the decoder reads from the table word `w` of `nbits` bits. -/
def decodeTableWord (nbits w : Nat) : Option Instr :=
  match decodeBytes (tableBytes nbits w) with
  | .ok (i, _) => some i
  | .error _ => none

end Sys2Proof
end

