-- ==== Sys2Proof/Machine/State.lean ====
section
/-! DEFINITION. The state of one channel (spec/10_state.md R20 to R40) and the model's own fields beside it: the
configuration, the pending samples of the input ports, the sampled wall clock, and the response and action list of the
last event (spec/00_scope.md R9). All of it is plain data. -/

namespace Sys2Proof.Machine

/-- `rec_phase` (R33): the recovery sequence. The fourth code of the 2-bit field is not representable (U16). -/
inductive RecPhase where
  | idle
  | offSettle
  | onSettle
  deriving DecidableEq, Repr

/-- `trig_phase` (R34): is the trigger window running? -/
inductive TrigPhase where
  | idle
  | asserting
  deriving DecidableEq, Repr

/-- Decode State (R20, R22 to R26): the sequencer, the reference tick, the five shift registers, the poison mark. -/
structure DecodeState where
  /-- `bit_index`, signed 8-bit two's complement (R22). -/
  bitIndex       : BitVec 8
  /-- `last_rising_tick` (R24). -/
  lastRisingTick : Tick
  /-- `hum_hi` (R25). -/
  humHi          : Byte
  /-- `hum_lo` (R25). -/
  humLo          : Byte
  /-- `tmp_hi` (R25). -/
  tmpHi          : Byte
  /-- `tmp_lo` (R25). -/
  tmpLo          : Byte
  /-- `cks_acc`, the received checksum byte (R25). -/
  cksAcc         : Byte
  /-- `poisoned` (R26). -/
  poisoned       : Bool
  deriving DecidableEq, Repr

/-- Reading (R20, R27): the last validated measurement, in integer tenths. -/
structure Reading where
  /-- `reading_valid`. -/
  readingValid      : Bool
  /-- `humidity_tenths`, unsigned. -/
  humidityTenths    : BitVec 16
  /-- `temperature_tenths`, two's complement. -/
  temperatureTenths : BitVec 16
  /-- `valid_since`, wall-clock time of the last valid frame. -/
  validSince        : Wall
  deriving DecidableEq, Repr

/-- Error Counters (R20, R29), each 32 bits, saturating (R30). -/
structure ErrorCounters where
  /-- `bad_checksum`. -/
  badChecksum    : BitVec 32
  /-- `short_message`. -/
  shortMessage   : BitVec 32
  /-- `missing_message`. -/
  missingMessage : BitVec 32
  /-- `sensor_reset`. -/
  sensorReset    : BitVec 32
  deriving DecidableEq, Repr

/-- Recovery State (R20, R31 to R33). -/
structure RecoveryState where
  /-- `consecutive_missing` (R31). -/
  consecutiveMissing : BitVec 8
  /-- `rec_phase` (R33). -/
  recPhase           : RecPhase
  /-- `powered` (R32). -/
  powered            : Bool
  deriving DecidableEq, Repr

/-- Facade state (R20, R34 to R37). The last five fields mirror what the block last commanded (R76). -/
structure FacadeState where
  /-- `trig_phase` (R34). -/
  trigPhase    : TrigPhase
  /-- `wd_armed` (R35). -/
  wdArmed      : Bool
  /-- `active` (R36). -/
  active       : Bool
  /-- `power_out` (R37). -/
  powerOut     : Bool
  /-- `indicator_out` (R37). -/
  indicatorOut : Bool
  /-- `data_drive_low` (R37). -/
  dataDriveLow : Bool
  deriving DecidableEq, Repr

/-- The status of a response (R75). -/
inductive Status where
  | ok
  | rejectedUnpowered
  | rejectedBusy
  | rejectedInactive
  | neverValid
  | ignored
  | illegalEvent
  deriving DecidableEq, Repr

/-- The response of one step (R74). -/
structure Response where
  status : Status
  data   : Data
  deriving DecidableEq, Repr

/-- The two uses of the external delay timer (R76). -/
inductive TimerId where
  | trig
  | settle
  deriving DecidableEq, Repr

/-- The output commands (R76), each with what its `arg` field carries. -/
inductive Action where
  | wdDisarm
  | wdArm (windowMs : BitVec 32)
  | dataLow
  | dataInput
  | power (assert : Bool)
  | indicator (assert : Bool)
  | timerStart (id : TimerId) (duration : BitVec 31)
  | unsubscribe
  deriving DecidableEq, Repr

/-- One sample of the block's input ports: `rst` (R280), `ev_valid` and `ev_word` (R70), `wall_now` (R77). -/
structure PortSample where
  rst     : Bool
  evValid : Bool
  evWord  : EventWord
  wallNow : Wall
  deriving DecidableEq, Repr

/-- The whole state: the record of R20 in its five groups, and the model's own fields. -/
structure State where
  /-- The configuration of the channel (R6, R7); no step writes it. -/
  cfg      : Config
  /-- Decode State. -/
  dec      : DecodeState
  /-- Reading. -/
  reading  : Reading
  /-- Error Counters. -/
  errors   : ErrorCounters
  /-- Recovery State. -/
  recovery : RecoveryState
  /-- Facade state, flags and pin mirrors. -/
  facade   : FacadeState
  /-- MODEL'S OWN: the `wall_now` sample of the step in progress or last made (R9, R77). -/
  wallNow  : Wall
  /-- MODEL'S OWN: the port samples the environment has presented and no step has taken yet, the next one first (R9, R58). -/
  pending  : List PortSample
  /-- MODEL'S OWN: the response of the last event (R9, R74); none before the first event after reset. -/
  response : Option Response
  /-- MODEL'S OWN: the action list that the last event emitted, in emission order (R9, R76). -/
  actions  : List Action
  deriving DecidableEq, Repr

/-- Why a step could stop with a fault: never. No condition of the block is fatal and there is no fault state
(spec/60_exceptions.md R247), so the type has no constructor and nothing raises one (safe). -/
inductive Fault : Type where
  deriving DecidableEq, Repr

/-- Why a step could be refused. -/
inductive Refusal where
  /-- An instruction of the table without a meaning in this model. Raised by an arm of `exec` only; no arm raises it: all
  sixteen kinds have their meaning (safe). -/
  | notModelled (mnemonic : String)
  deriving DecidableEq, Repr

/-- The Decode State right after hardware reset: what `frame_reset()` writes, and tick 0 (R40, D4, D5). -/
def DecodeState.afterReset (cfg : Config) : DecodeState where
  bitIndex       := cfg.preambleStart
  lastRisingTick := 0#32
  humHi          := 0#8
  humLo          := 0#8
  tmpHi          := 0#8
  tmpLo          := 0#8
  cksAcc         := 0#8
  poisoned       := false

/-- The state right after hardware reset in a configuration: every field at the value of R40, nothing presented at the
ports, no response and no action (R280). -/
def State.resetWith (cfg : Config) : State where
  cfg      := cfg
  dec      := DecodeState.afterReset cfg
  reading  := { readingValid := false, humidityTenths := 0#16, temperatureTenths := 0#16, validSince := 0#64 }
  errors   := { badChecksum := 0#32, shortMessage := 0#32, missingMessage := 0#32, sensorReset := 0#32 }
  recovery := { consecutiveMissing := 0#8, recPhase := .idle, powered := true }
  facade   := { trigPhase := .idle, wdArmed := false, active := true, powerOut := cfg.hasPowerLine,
                indicatorOut := false, dataDriveLow := false }
  wallNow  := 0#64
  pending  := []
  response := none
  actions  := []

/-- The machine right after reset, in the reference configuration (R40, R280). -/
def State.reset : State := State.resetWith Config.reference

end Sys2Proof.Machine
end

