-- ==== Sys2Proof/Machine/Ports.lean ====
section
/-! DEFINITION. The codes and words of the output side: status codes and RESP132 (spec/30_encoding.md R74, R75), ACT36
action words (R76), the codes of the two phase fields (spec/10_state.md R33, R34). -/

namespace Sys2Proof.Machine

/-- The status codes (R75). -/
def Status.code : Status → BitVec 4
  | .ok => 0x0#4
  | .rejectedUnpowered => 0x1#4
  | .rejectedBusy => 0x2#4
  | .rejectedInactive => 0x3#4
  | .neverValid => 0x4#4
  | .ignored => 0x5#4
  | .illegalEvent => 0xF#4

/-- RESP132: `[131:128] status`, `[127:0] data` (R74). -/
def Response.word (r : Response) : BitVec 132 := r.status.code ++ r.data

/-- The code of `rec_phase` (R33). -/
def RecPhase.code : RecPhase → BitVec 2
  | .idle => 0#2
  | .offSettle => 1#2
  | .onSettle => 2#2

/-- The code of `trig_phase` (R34). -/
def TrigPhase.code : TrigPhase → BitVec 1
  | .idle => 0#1
  | .asserting => 1#1

/-- The timer id, bit 31 of A_TIMER_START's argument (R76). -/
def TimerId.code : TimerId → BitVec 1
  | .trig => 0#1
  | .settle => 1#1

/-- The action codes, bits 35..32 (R76). -/
def Action.code : Action → BitVec 4
  | .wdDisarm => 0x0#4
  | .wdArm _ => 0x1#4
  | .dataLow => 0x2#4
  | .dataInput => 0x3#4
  | .power _ => 0x4#4
  | .indicator _ => 0x5#4
  | .timerStart _ _ => 0x6#4
  | .unsubscribe => 0x7#4

/-- The argument of an action, bits 31..0 (R76). -/
def Action.arg : Action → BitVec 32
  | .wdDisarm => 0#32
  | .wdArm window => window
  | .dataLow => 0#32
  | .dataInput => 0#32
  | .power b => 0#31 ++ BitVec.ofBool b
  | .indicator b => 0#31 ++ BitVec.ofBool b
  | .timerStart id d => id.code ++ d
  | .unsubscribe => 0#32

/-- ACT36: `[35:32] code`, `[31:0] arg` (R76). -/
def Action.word (a : Action) : BitVec 36 := a.code ++ a.arg

end Sys2Proof.Machine
end

