-- ==== Sys2Proof/Machine/Operands.lean ====
section
/-! DEFINITION. What is computed from a tick and from the bytes of a frame: wrap-safe subtraction
(spec/40_tick_arithmetic.md R100), the pulse-width discriminator (spec/41_frame_assembler.md R113), one shift (R114), the
value decoder (spec/42_checksum_value_decoder.md R141, R142, R146), saturating increments (spec/00_scope.md R10), and the
constants these read (R5). -/

namespace Sys2Proof.Machine

/-- T_ONE (R5). -/
def tOne : Nat := 50

/-- T_LONG (R5). -/
def tLong : Nat := 200

/-- T_GAP (R5). -/
def tGap : Nat := 250000

/-- FRAME_BITS (R5). -/
def frameBits : Int := 40

/-- MISSING_LIMIT (R5). -/
def missingLimit : Int := 8

/-- SHORT_LIMIT (R5). -/
def shortLimit : Int := 39

/-- BIT_INDEX_SAT (R7, D3). -/
def bitIndexSat : BitVec 8 := 127#8

/-- `elapsed(a, b) = (b - a) mod 2^32`, from the earlier tick `a` to the later tick `b` (R100). -/
def elapsed (a b : Tick) : Tick := b - a

/-- The result of the discriminator: the decoded bit and the long-pulse mark (R113). -/
structure PulseClass where
  bit  : Bool
  long : Bool
  deriving DecidableEq, Repr

/-- `classify(w)` (R113). -/
def classify (w : Tick) : PulseClass :=
  if w.toNat < tOne then ⟨false, false⟩
  else if w.toNat < tLong then ⟨true, false⟩
  else ⟨true, true⟩

/-- `((r << 1) | b)[7:0]` (R114). -/
def shiftBit (r : Byte) (b : Bool) : Byte := (r <<< 1) ||| (BitVec.ofBool b).setWidth 8

/-- `sat_inc_32(c)` (R10, R30). -/
def satInc32 (c : BitVec 32) : BitVec 32 := if c.toNat < 2 ^ 32 - 1 then c + 1#32 else c

/-- The index advance: one more, but 127 stays (R116, D3). -/
def advanceIndex (i : BitVec 8) : BitVec 8 := if i.toInt < bitIndexSat.toInt then i + 1#8 else bitIndexSat

/-- `hum_raw(hum_hi, hum_lo)` (R141): big-endian (R54). -/
def humRaw (hi lo : Byte) : BitVec 16 := hi ++ lo

/-- `tmp_mag(tmp_hi, tmp_lo)` (R142): the 15-bit magnitude, the sign flag masked off. -/
def tmpMag (hi lo : Byte) : BitVec 16 := (hi &&& 0x7F#8) ++ lo

/-- `tmp_raw(tmp_hi, tmp_lo)` (R142): sign-and-magnitude to 16-bit two's complement. -/
def tmpRaw (hi lo : Byte) : BitVec 16 := if hi.msb then -tmpMag hi lo else tmpMag hi lo

/-- The physical humidity of a Reading, `humidity_tenths / 10` exactly; computed by the reader, outside the block (R141, R146). -/
def physicalHumidity (r : Reading) : Rat := (r.humidityTenths.toNat : Rat) / 10

/-- The physical temperature of a Reading, `temperature_tenths / 10` exactly (R142, R146). -/
def physicalTemperature (r : Reading) : Rat := (r.temperatureTenths.toInt : Rat) / 10

/-- The names the source gives the states of the assembler (R39). They are descriptive: no register holds them. -/
inductive AssemblerState where
  | awaitingStart
  | humidityHigh
  | humidityLow
  | tempHigh
  | tempLow
  | checksum
  | complete
  deriving DecidableEq, Repr

/-- The state name that a value of `bit_index` selects (R39). -/
def assemblerState (i : BitVec 8) : AssemblerState :=
  if i.toInt < 0 then .awaitingStart
  else if i.toInt < 8 then .humidityHigh
  else if i.toInt < 16 then .humidityLow
  else if i.toInt < 24 then .tempHigh
  else if i.toInt < 32 then .tempLow
  else if i.toInt < frameBits then .checksum
  else .complete

end Sys2Proof.Machine
end

