-- ==== Sys2Proof/Machine/Flags.lean ====
section
/-! DEFINITION. The flags: what decides whether a frame is valid (spec/42_checksum_value_decoder.md R140), and the flag word
that RD_STATUS returns (spec/45_channel_facade.md R206). The block has no condition codes (spec/10_state.md R38). -/

namespace Sys2Proof.Machine

/-- `sum = (hum_hi + hum_lo + tmp_hi + tmp_lo) mod 256` (R140). -/
def frameSum (d : DecodeState) : Byte := d.humHi + d.humLo + d.tmpHi + d.tmpLo

/-- `valid = (sum = cks_acc) and (poisoned = 0)` (R140). -/
def frameValid (d : DecodeState) : Bool := frameSum d == d.cksAcc && !d.poisoned

/-- The data of RD_STATUS (R206), from bit 127 down to bit 0. -/
def statusData (d : DecodeState) (r : Reading) (v : RecoveryState) (f : FacadeState) : Data :=
  0#104 ++ (v.consecutiveMissing ++ (d.bitIndex ++ (BitVec.ofBool r.readingValid ++ (BitVec.ofBool d.poisoned ++
    (v.recPhase.code ++ (f.trigPhase.code ++ (BitVec.ofBool f.wdArmed ++ (BitVec.ofBool f.active ++
      BitVec.ofBool v.powered))))))))

/-- The data of RD_DIAGNOSTICS (R205): `sensor_reset ++ missing_message ++ short_message ++ bad_checksum`. -/
def diagnosticsData (e : ErrorCounters) : Data :=
  e.sensorReset ++ (e.missingMessage ++ (e.shortMessage ++ e.badChecksum))

end Sys2Proof.Machine
end

