-- ==== Sys2Proof/Machine/Ops.lean ====
section
/-! DEFINITION. The shared operations of the steps: taking a sample from the ports, responding and commanding the
collaborator (spec/00_scope.md R9, R10; spec/30_encoding.md R74, R76), the frame operations (spec/41_frame_assembler.md),
validation and publication (spec/42_checksum_value_decoder.md), raising a condition (spec/60_exceptions.md R240), entering
and leaving the power-cycle recovery (spec/44_recovery_fsm.md), and the host-read map (spec/20_memory.md R62). -/

namespace Sys2Proof.Machine

/-! ## Ports -/

/-- The state in which the event of a port sample is processed: the sample is taken, its `wall_now` is the step's (R9, R77). -/
def State.takeSample (s : State) (p : PortSample) (rest : List PortSample) : State :=
  { s with pending := rest, wallNow := p.wallNow }

/-- Hardware reset (R280): the record of R40 in the same configuration; what the environment has yet to present is not the
block's and stays. No response, no action. -/
def State.hardwareReset (s : State) (rest : List PortSample) : State :=
  { State.resetWith s.cfg with pending := rest }

/-- The state with one more event presented, before all that is pending, the wall clock unchanged. -/
def State.present (s : State) (w : EventWord) : State :=
  { s with pending := { rst := false, evValid := true, evWord := w, wallNow := s.wallNow } :: s.pending }

/-! ## Responses and actions -/

/-- The start of a step: response `(OK, 0)` unless the step says otherwise, and an empty action list (R10, R74, R76). -/
def State.beginStep (s : State) : State := { s with response := some ⟨.ok, 0#128⟩, actions := [] }

/-- `respond(status, data)` (R10). -/
def State.respond (s : State) (st : Status) (data : Data) : State := { s with response := some ⟨st, data⟩ }

/-- The state mirror that an action writes in the step that emits it (R76). -/
def FacadeState.mirror (f : FacadeState) : Action → FacadeState
  | .wdDisarm => { f with wdArmed := false }
  | .wdArm _ => { f with wdArmed := true }
  | .dataLow => { f with dataDriveLow := true }
  | .dataInput => { f with dataDriveLow := false }
  | .power b => { f with powerOut := b }
  | .indicator b => { f with indicatorOut := b }
  | .timerStart _ _ => f
  | .unsubscribe => { f with active := false }

/-- `emit A(args)` with the write of the mirror that R76 puts in the same step. -/
def State.command (s : State) (a : Action) : State :=
  { s with facade := s.facade.mirror a, actions := s.actions ++ [a] }

/-- A command to the indicator line, where the channel has one (R76, D30). -/
def State.commandIndicator (s : State) (b : Bool) : State :=
  if s.cfg.hasIndicatorLine then s.command (.indicator b) else s

/-- The complete no-op with a status (R75, R247): nothing changes, no action, data 0. -/
def State.turnAway (s : State) (st : Status) : State := s.beginStep.respond st 0#128

/-! ## Taking the recovery, and the return from it -/

/-- `request_recovery()` (R180, R184, R185), the entry of the one condition that has an entry sequence (R253). -/
def State.requestRecovery (s : State) : State :=
  if !s.cfg.hasPowerLine then
    { s with errors := { s.errors with sensorReset := satInc32 s.errors.sensorReset } }
  else if s.recovery.recPhase ≠ .idle then s
  else
    let s := { s with recovery := { s.recovery with powered := false } }
    let s := s.command (.power false)
    let s := s.command (.timerStart .settle s.cfg.settleDelay)
    { s with recovery := { s.recovery with recPhase := .offSettle } }

/-- The middle of the recovery (R181): the power line is asserted again and the second settling delay starts. -/
def State.restorePower (s : State) : State :=
  let s := s.command (.power true)
  let s := s.command (.timerStart .settle s.cfg.settleDelay)
  { s with recovery := { s.recovery with recPhase := .onSettle } }

/-- The return from the recovery (R182, R254). -/
def State.finishRecovery (s : State) : State :=
  { s with
    recovery := { s.recovery with powered := true, recPhase := .idle }
    errors := { s.errors with sensorReset := satInc32 s.errors.sensorReset } }

/-! ## Raising a condition -/

/-- The conditions (R240). -/
inductive Condition where
  | invalidPulseWidth
  | checksumMismatch
  | shortMessage
  | missingMessage
  | sensorUnresponsive
  | triggerWhileUnpowered
  deriving DecidableEq, Repr

/-- The spec's numbering of the conditions; no register or port carries it (R240). -/
def Condition.code : Condition → Nat
  | .invalidPulseWidth => 1
  | .checksumMismatch => 2
  | .shortMessage => 3
  | .missingMessage => 4
  | .sensorUnresponsive => 5
  | .triggerWhileUnpowered => 6

/-- `consecutive_missing <- 0`. -/
def State.clearMissing (s : State) : State :=
  { s with recovery := { s.recovery with consecutiveMissing := 0#8 } }

/-- SensorUnresponsive (R161, R245): the streak is cleared and a recovery requested. -/
def State.sensorUnresponsive (s : State) : State := s.clearMissing.requestRecovery

/-- MissingMessage (R161). The sum is compared before it is narrowed to the 8-bit register, which it always fits. -/
def State.missedMessage (s : State) : State :=
  let s := { s with errors := { s.errors with missingMessage := satInc32 s.errors.missingMessage } }
  let n := s.recovery.consecutiveMissing.toNat + 1
  if n > s.cfg.maxNoResponse.val then s.sensorUnresponsive
  else { s with recovery := { s.recovery with consecutiveMissing := BitVec.ofNat 8 n } }

/-- `raise Cond`: exactly the effects of the condition, then the step goes on (R10, R240 to R247). -/
def State.raise (s : State) : Condition → State
  | .invalidPulseWidth => { s with dec := { s.dec with poisoned := true } }
  | .checksumMismatch => { s with errors := { s.errors with badChecksum := satInc32 s.errors.badChecksum } }
  | .shortMessage =>
    { s with errors := { s.errors with shortMessage := satInc32 s.errors.shortMessage } }.clearMissing
  | .missingMessage => s.missedMessage
  | .sensorUnresponsive => s.sensorUnresponsive
  | .triggerWhileUnpowered => s.respond .rejectedUnpowered 0#128

/-! ## Frames -/

/-- `frame_reset()` (R111). -/
def State.frameReset (s : State) : State :=
  { s with dec := { DecodeState.afterReset s.cfg with lastRisingTick := s.dec.lastRisingTick } }

/-- `shift_in(i, b)` for a payload index `i` (R114); no other index reaches it. -/
def shiftIn (d : DecodeState) (i : Nat) (b : Bool) : DecodeState :=
  match i / 8 with
  | 0 => { d with humHi := shiftBit d.humHi b }
  | 1 => { d with humLo := shiftBit d.humLo b }
  | 2 => { d with tmpHi := shiftBit d.tmpHi b }
  | 3 => { d with tmpLo := shiftBit d.tmpLo b }
  | 4 => { d with cksAcc := shiftBit d.cksAcc b }
  | _ => d

/-- `publish()` (R143). -/
def State.publish (s : State) : State :=
  let s := { s with
    reading := {
      humidityTenths := humRaw s.dec.humHi s.dec.humLo
      temperatureTenths := tmpRaw s.dec.tmpHi s.dec.tmpLo
      validSince := s.wallNow
      readingValid := true } }
  s.commandIndicator false

/-- `validate_and_publish()` (R140). -/
def State.validateAndPublish (s : State) : State :=
  if frameValid s.dec then s.publish else s.raise .checksumMismatch

/-- `complete_frame()` (R115). -/
def State.completeFrame (s : State) : State := (s.command .wdDisarm).clearMissing.validateAndPublish

/-- A falling edge on payload index `i` with a pulse of width `w`, up to the index advance (R112). -/
def State.payloadEdge (s : State) (i : Nat) (w : Tick) : State :=
  let c := classify w
  let s := if c.long then s.raise .invalidPulseWidth else s
  let s := { s with dec := shiftIn s.dec i c.bit }
  if i = 39 then s.completeFrame else s

/-- A falling edge on a header bit, up to the index advance: nothing (R117), unless the optional parameter POISON_ON_HEADER
selects the other reading, in which a long header pulse poisons (D6, U25). -/
def State.headerEdge (s : State) (w : Tick) : State :=
  if s.cfg.poisonOnHeader && (classify w).long then s.raise .invalidPulseWidth else s

/-- The index advance of an accepted falling edge (R116). -/
def State.advance (s : State) : State :=
  { s with dec := { s.dec with bitIndex := advanceIndex s.dec.bitIndex } }

/-! ## The host-read map -/

/-- The five read selectors (R62). -/
inductive ReadSel where
  | humidity
  | temperature
  | staleness
  | diagnostics
  | status
  deriving DecidableEq, Repr

/-- The event kind that is the selector's number in the host-read map (R51, R62). -/
def ReadSel.kind : ReadSel → Kind
  | .humidity => .rdHumidity
  | .temperature => .rdTemperature
  | .staleness => .rdStaleness
  | .diagnostics => .rdDiagnostics
  | .status => .rdStatus

/-- A read of the Reading: NEVER_VALID with data 0 until a frame has been validated (R62, D9). -/
def guardedRead (r : Reading) (d : Data) : Response := if r.readingValid then ⟨.ok, d⟩ else ⟨.neverValid, 0#128⟩

/-- `RdPort(sel)` (R62, R202 to R206). -/
def State.rdPort (s : State) : ReadSel → Response
  | .humidity => guardedRead s.reading (s.reading.humidityTenths.setWidth 128)
  | .temperature => guardedRead s.reading (s.reading.temperatureTenths.setWidth 128)
  | .staleness => guardedRead s.reading ((s.wallNow - s.reading.validSince).setWidth 128)
  | .diagnostics => ⟨.ok, diagnosticsData s.errors⟩
  | .status => ⟨.ok, statusData s.dec s.reading s.recovery s.facade⟩

/-- A read step: a response and nothing else (R57). -/
def State.read (s : State) (sel : ReadSel) : State :=
  s.beginStep.respond (s.rdPort sel).status (s.rdPort sel).data

end Sys2Proof.Machine
end

