-- ==== Sys2Proof/Machine/Assembler.lean ====
section
/-! DEFINITION. The Frame Assembler: RISE and FALL (spec/41_frame_assembler.md). -/

namespace Sys2Proof.Machine

/-- RISE (R110). The gap is measured from the value `last_rising_tick` held before the step. -/
def execRise (tick : Tick) (s : State) : Host.Outcome State Fault Refusal :=
  if !s.facade.active then .next (s.turnAway .ignored)
  else
    let gap := elapsed s.dec.lastRisingTick tick
    let s := s.beginStep
    let s := { s with dec := { s.dec with lastRisingTick := tick } }
    .next (if gap.toNat > tGap then s.frameReset else s)

/-- FALL (R112, R116 to R119). -/
def execFall (tick : Tick) (s : State) : Host.Outcome State Fault Refusal :=
  if !s.facade.active then .next (s.turnAway .ignored)
  else
    let w := elapsed s.dec.lastRisingTick tick
    let i := s.dec.bitIndex.toInt
    let s := s.beginStep
    let s :=
      if i < 0 then s.headerEdge w
      else if i < frameBits then s.payloadEdge i.toNat w
      else s
    .next s.advance

end Sys2Proof.Machine
end

