-- ==== Sys2Proof/Machine/Classifier.lean ====
section
/-! DEFINITION. The Timeout Classifier: TIMEOUT (spec/43_timeout_classifier.md). -/

namespace Sys2Proof.Machine

/-- TIMEOUT (R160 to R164); `arg` is reserved and not read (R72). -/
def execTimeout (_arg : BitVec 32) (s : State) : Host.Outcome State Fault Refusal :=
  if !s.facade.active || !s.facade.wdArmed then .next (s.turnAway .ignored)
  else
    let i := s.dec.bitIndex.toInt
    let s := s.beginStep.command .wdDisarm
    .next
      (if i < missingLimit then (s.raise .missingMessage).respond .ok 0#128
      else if i < shortLimit then (s.raise .shortMessage).respond .ok 1#128
      else s.clearMissing.respond .ok 2#128)

end Sys2Proof.Machine
end

