-- ==== Sys2Proof/Machine/Facade.lean ====
section
/-! DEFINITION. The Channel Facade's commands: TRIG_REQ, TRIG_DONE, SHUTDOWN (spec/45_channel_facade.md). The `arg` of each
is reserved and not read (spec/30_encoding.md R72). -/

namespace Sys2Proof.Machine

/-- TRIG_REQ (R200): the three rejections in their order, then the start of the window. -/
def execTrigReq (_arg : BitVec 32) (s : State) : Host.Outcome State Fault Refusal :=
  if !s.facade.active then .next (s.turnAway .rejectedInactive)
  else if !s.recovery.powered then .next (s.beginStep.raise .triggerWhileUnpowered)
  else if s.facade.trigPhase = .asserting then .next (s.turnAway .rejectedBusy)
  else
    let s := s.beginStep.commandIndicator true
    let s := s.command .dataLow
    let s := s.command (.timerStart .trig s.cfg.triggerLowMs)
    .next { s with facade := { s.facade with trigPhase := .asserting } }

/-- TRIG_DONE (R201): the line is released; the watchdog is armed while the channel is active. -/
def execTrigDone (_arg : BitVec 32) (s : State) : Host.Outcome State Fault Refusal :=
  if s.facade.trigPhase ≠ .asserting then .next (s.turnAway .ignored)
  else
    let s := s.beginStep.command .dataInput
    let s := if s.facade.active then s.command (.wdArm s.cfg.wdWindowMs) else s
    .next { s with facade := { s.facade with trigPhase := .idle } }

/-- SHUTDOWN (R207), idempotent. -/
def execShutdown (_arg : BitVec 32) (s : State) : Host.Outcome State Fault Refusal :=
  let b := s.beginStep
  .next (if b.facade.active then (b.command .wdDisarm).command .unsubscribe else b)

end Sys2Proof.Machine
end

