-- ==== Sys2Proof/Machine/Reads.lean ====
section
/-! DEFINITION. The five host reads (spec/45_channel_facade.md R202 to R206). None changes the state (spec/20_memory.md R57);
the `arg` of each is reserved and not read (spec/30_encoding.md R72). -/

namespace Sys2Proof.Machine

/-- RD_HUMIDITY (R202). -/
def execRdHumidity (_arg : BitVec 32) (s : State) : Host.Outcome State Fault Refusal := .next (s.read .humidity)

/-- RD_TEMPERATURE (R203). -/
def execRdTemperature (_arg : BitVec 32) (s : State) : Host.Outcome State Fault Refusal := .next (s.read .temperature)

/-- RD_STALENESS (R204). -/
def execRdStaleness (_arg : BitVec 32) (s : State) : Host.Outcome State Fault Refusal := .next (s.read .staleness)

/-- RD_DIAGNOSTICS (R205). -/
def execRdDiagnostics (_arg : BitVec 32) (s : State) : Host.Outcome State Fault Refusal := .next (s.read .diagnostics)

/-- RD_STATUS (R206). -/
def execRdStatus (_arg : BitVec 32) (s : State) : Host.Outcome State Fault Refusal := .next (s.read .status)

end Sys2Proof.Machine
end

