-- ==== Sys2Proof/Machine/Recovery.lean ====
section
/-! DEFINITION. The Recovery Policy's own event: SETTLE_DONE (spec/44_recovery_fsm.md). -/

namespace Sys2Proof.Machine

/-- SETTLE_DONE (R181, R182, R183), not gated by `active`; `arg` is reserved and not read (R72). -/
def execSettleDone (_arg : BitVec 32) (s : State) : Host.Outcome State Fault Refusal :=
  match s.recovery.recPhase with
  | .idle => .next (s.turnAway .ignored)
  | .offSettle => .next s.beginStep.restorePower
  | .onSettle => .next s.beginStep.finishRecovery

end Sys2Proof.Machine
end

