-- ==== Sys2Proof/Machine/Reserved.lean ====
section
/-! DEFINITION. The four reserved kinds (spec/30_encoding.md R73, spec/45_channel_facade.md R208): an illegal event changes no
state, emits no action and is answered `(ILLEGAL_EVENT, 0)`; the next event is processed normally. -/

namespace Sys2Proof.Machine

/-- Kind 0x7 (R208). -/
def execReserved7 (_arg : BitVec 32) (s : State) : Host.Outcome State Fault Refusal := .next (s.turnAway .illegalEvent)

/-- Kind 0xD (R208). -/
def execReservedD (_arg : BitVec 32) (s : State) : Host.Outcome State Fault Refusal := .next (s.turnAway .illegalEvent)

/-- Kind 0xE (R208). -/
def execReservedE (_arg : BitVec 32) (s : State) : Host.Outcome State Fault Refusal := .next (s.turnAway .illegalEvent)

/-- Kind 0xF (R208). -/
def execReservedF (_arg : BitVec 32) (s : State) : Host.Outcome State Fault Refusal := .next (s.turnAway .illegalEvent)

end Sys2Proof.Machine
end

