-- ==== Sys2Proof/Machine/Dispatch.lean ====
section
/-! DEFINITION. One arm per instruction (spec/30_encoding.md R71). -/

namespace Sys2Proof.Machine

def exec (i : Instr) (s : State) : Host.Outcome State Fault Refusal :=
  match i with
  | .fall tick => Sys2Proof.Machine.execFall tick s
  | .rise tick => Sys2Proof.Machine.execRise tick s
  | .timeout arg => Sys2Proof.Machine.execTimeout arg s
  | .settleDone arg => Sys2Proof.Machine.execSettleDone arg s
  | .trigReq arg => Sys2Proof.Machine.execTrigReq arg s
  | .trigDone arg => Sys2Proof.Machine.execTrigDone arg s
  | .shutdown arg => Sys2Proof.Machine.execShutdown arg s
  | .reserved7 arg => Sys2Proof.Machine.execReserved7 arg s
  | .rdHumidity arg => Sys2Proof.Machine.execRdHumidity arg s
  | .rdTemperature arg => Sys2Proof.Machine.execRdTemperature arg s
  | .rdStaleness arg => Sys2Proof.Machine.execRdStaleness arg s
  | .rdDiagnostics arg => Sys2Proof.Machine.execRdDiagnostics arg s
  | .rdStatus arg => Sys2Proof.Machine.execRdStatus arg s
  | .reservedD arg => Sys2Proof.Machine.execReservedD arg s
  | .reservedE arg => Sys2Proof.Machine.execReservedE arg s
  | .reservedF arg => Sys2Proof.Machine.execReservedF arg s

end Sys2Proof.Machine
end

