-- ==== Sys2Proof/Machine/Step.lean ====
section
/-! DEFINITION. One step (spec/00_scope.md R9; spec/30_encoding.md R70, R77; spec/70_reset_and_hazards.md R280): it takes one
sample of the input ports. With `rst` asserted no event is accepted and the record of reset is restored; with an event
presented the event's meaning runs; with neither, or with nothing presented at all, the block is idle
(spec/60_exceptions.md R262). -/

namespace Sys2Proof.Machine

/-- One step of the block. -/
def step (s : State) : Host.Outcome State Fault Refusal :=
  match s.pending with
  | [] => .next s
  | p :: rest =>
    if p.rst then .next (s.hardwareReset rest)
    else if p.evValid then exec (decode p.evWord) (s.takeSample p rest)
    else .next { s with pending := rest }

/-- `s` with the table word `w` of `nbits` bits presented as its very next event (notes/assumptions/2.md). -/
def State.withFetchWord (s : State) (nbits w : Nat) : State := s.present (tableEventWord nbits w)

end Sys2Proof.Machine
end

