-- ==== Sys2Proof/Machine/Listing.lean ====
section
/-! DEFINITION. The textual form of event programs (spec/30_encoding.md R78) and the pseudo-events, abbreviations for fixed
lists of events (R79). Both belong to the spec's own notation for programs and test vectors; the block reads neither. -/

namespace Sys2Proof.Machine

/-! ## Pseudo-events (R79) -/

/-- `PULSE t, w`. -/
def pulseEvents (t w : Tick) : List Instr := [.rise t, .fall (t + w)]

/-- The width of the pulse that stands for a bit: 26 for 0, 70 for 1. -/
def bitWidth (b : Bool) : Tick := if b then 70#32 else 26#32

/-- `BIT b, t`. -/
def bitEvents (b : Bool) (t : Tick) : List Instr := pulseEvents t (bitWidth b)

/-- Bits from tick `t` on, each starting 50 after the falling edge of the one before, and the tick where a next one starts. -/
def bitsEvents : List Bool → Tick → List Instr × Tick
  | [], t => ([], t)
  | b :: bs, t =>
    let rest := bitsEvents bs (t + bitWidth b + 50#32)
    (bitEvents b t ++ rest.1, rest.2)

/-- The bits of a byte, most significant first. -/
def byteBits (v : Byte) : List Bool := [7, 6, 5, 4, 3, 2, 1, 0].map v.getLsbD

/-- `BYTE v, t`. -/
def byteEvents (v : Byte) (t : Tick) : List Instr := (bitsEvents (byteBits v) t).1

/-- `FRAME b0 b1 b2 b3 b4, t`. -/
def frameEvents (b0 b1 b2 b3 b4 : Byte) (t : Tick) : List Instr :=
  (bitsEvents (byteBits b0 ++ byteBits b1 ++ byteBits b2 ++ byteBits b3 ++ byteBits b4) t).1

/-- `HEADER t`; a frame that follows starts at `t + 190 + 50`. -/
def headerEvents (t : Tick) : List Instr := [.rise t, .fall (t + 30#32), .rise (t + 110#32), .fall (t + 190#32)]

/-! ## Lines of text (R78), as lists of characters -/

/-- What a line of a program says. -/
inductive Line where
  /-- Nothing but blanks or a comment. -/
  | blank
  /-- `RESET`: hardware reset; it has no event word. -/
  | reset
  /-- An event, with the `@wall=` value where the line gives one. -/
  | event (i : Instr) (wall : Option Wall)
  deriving DecidableEq, Repr

/-- The spelling of each kind (R71; R80 for the reserved ones). -/
def kindMnemonic : Kind → String
  | .fall => "FALL"
  | .rise => "RISE"
  | .timeout => "TIMEOUT"
  | .settleDone => "SETTLE_DONE"
  | .trigReq => "TRIG_REQ"
  | .trigDone => "TRIG_DONE"
  | .shutdown => "SHUTDOWN"
  | .reserved7 => "RESERVED_7"
  | .rdHumidity => "RD_HUMIDITY"
  | .rdTemperature => "RD_TEMPERATURE"
  | .rdStaleness => "RD_STALENESS"
  | .rdDiagnostics => "RD_DIAGNOSTICS"
  | .rdStatus => "RD_STATUS"
  | .reservedD => "RESERVED_D"
  | .reservedE => "RESERVED_E"
  | .reservedF => "RESERVED_F"

/-- The kind that a word spells. -/
def kindOfSpelling (w : List Char) : Option Kind :=
  (opcodeTable.map (·.kind)).find? fun k => (kindMnemonic k).toList == w

/-- The words of a line, separated by blanks. -/
def splitWords (cs : List Char) : List (List Char) :=
  let r := cs.foldr (fun c (acc : List Char × List (List Char)) =>
    if c = ' ' ∨ c = '\t' then ([], if acc.1 = [] then acc.2 else acc.1 :: acc.2) else (c :: acc.1, acc.2)) ([], [])
  if r.1 = [] then r.2 else r.1 :: r.2

/-- The value of a digit in a base up to 16. -/
def digitValue (base : Nat) (c : Char) : Option Nat :=
  let n := c.toNat
  let v := if 48 ≤ n ∧ n ≤ 57 then n - 48 else if 65 ≤ n ∧ n ≤ 70 then n - 55 else if 97 ≤ n ∧ n ≤ 102 then n - 87 else base
  if v < base then some v else none

/-- A non-empty string of digits in a base, most significant first. -/
def digitsValue (base : Nat) : List Char → Option Nat
  | [] => none
  | c :: cs => cs.foldl (fun acc c => do return base * (← acc) + (← digitValue base c)) (digitValue base c)

/-- A number, in decimal or `0x` hexadecimal. -/
def numberValue : List Char → Option Nat
  | '0' :: 'x' :: cs => digitsValue 16 cs
  | cs => digitsValue 10 cs

/-- A number that fits a width. -/
def boundedNumber (bits : Nat) (cs : List Char) : Option (BitVec bits) :=
  (numberValue cs).bind fun n => if n < 2 ^ bits then some (BitVec.ofNat bits n) else none

/-- The optional `@wall=<n>` that ends a line. -/
def wallOf : List (List Char) → Option (Option Wall)
  | [] => some none
  | [w] => if w.take 6 = "@wall=".toList then (boundedNumber 64 (w.drop 6)).map some else none
  | _ => none

/-- One line of text, or nothing where the text is none of the forms of R78: `MNEMONIC tick` for an edge, `MNEMONIC` for
any other kind, each with an optional `@wall=<n>`; `RESET`; a comment after `;`. -/
def parseLine (text : List Char) : Option Line :=
  match splitWords (text.takeWhile (· ≠ ';')) with
  | [] => some .blank
  | m :: args =>
    if m = "RESET".toList ∧ args = [] then some .reset
    else
      (kindOfSpelling m).bind fun k =>
        match k.isEdge, args with
        | true, t :: more => do return .event (Instr.ofKind k (← boundedNumber 32 t)) (← wallOf more)
        | true, [] => none
        | false, more => do return .event (Instr.ofKind k 0#32) (← wallOf more)

/-- The port samples of parsed lines; `wall` is the value of the line before (R78: initially 0). -/
def linesSamples : List Line → Wall → List PortSample
  | [], _ => []
  | .blank :: ls, wall => linesSamples ls wall
  | .reset :: ls, wall => { rst := true, evValid := false, evWord := 0#36, wallNow := wall } :: linesSamples ls wall
  | .event i w :: ls, wall =>
    let now := w.getD wall
    { rst := false, evValid := true, evWord := encode i, wallNow := now } :: linesSamples ls now

/-- A program text as the port samples that present it, or nothing where a line has no reading. -/
def assemble (text : List (List Char)) : Option (List PortSample) :=
  (text.mapM parseLine).map fun ls => linesSamples ls 0#64

end Sys2Proof.Machine
end

