-- ==== Sys2Proof/Safety.lean ====
section
/-! DEFINITION. The terms in which the statements speak: the arithmetic of the spec on plain numbers, what the environment
may send (spec/60_exceptions.md R248, R251), how the pin mirrors follow the actions (spec/30_encoding.md R76), the number
that a frame attempt has received (spec/20_memory.md R52 to R54), and the invariants of the state. -/

namespace Sys2Proof.Machine

/-! ## The spec's arithmetic on numbers -/

/-- `(b - a) mod 2^32`, the forward distance of two ticks as a number (R100). -/
def ticksBetween (a b : Tick) : Nat := (((b.toNat : Int) - (a.toNat : Int)) % 2 ^ 32).toNat

/-- The width in ticks of the high pulse that a falling edge at `tick` ends (R112). -/
def pulseWidth (s : State) (tick : Tick) : Nat := ticksBetween s.dec.lastRisingTick tick

/-- `2 * r + b` modulo 256: the byte with one more bit at its low end (R114). -/
def appendBit (r : Byte) (b : Bool) : Byte := BitVec.ofNat 8 (2 * r.toNat + b.toNat)

/-- One more, but never past `0xFFFFFFFF` (R30). -/
def countUp (c : BitVec 32) : BitVec 32 := BitVec.ofNat 32 (min (c.toNat + 1) (2 ^ 32 - 1))

/-- The four payload bytes add up to a checksum byte, modulo 256 (R140). -/
def sumMatches (d : DecodeState) (cks : Byte) : Prop :=
  (d.humHi.toNat + d.humLo.toNat + d.tmpHi.toNat + d.tmpLo.toNat) % 256 = cks.toNat

/-- The temperature in tenths that two bytes stand for: sign and magnitude (R142). -/
def signedTenths (hi lo : Byte) : Int :=
  if 128 ≤ hi.toNat then -(((hi.toNat % 128 * 256 + lo.toNat : Nat)) : Int) else ((hi.toNat * 256 + lo.toNat : Nat) : Int)

/-- The state after an event that was answered with a status and changed nothing else. -/
def answeredOnly (s : State) (st : Status) (data : Data) : State :=
  { s with response := some ⟨st, data⟩, actions := [] }

/-! ## The environment -/

/-- The asynchronous sources of events (R248). -/
inductive EventSource where
  | edgeDetector
  | watchdog
  | trigTimer
  | settleTimer
  | host
  deriving DecidableEq, Repr

/-- The source of a kind; a reserved kind has none (R248). -/
def eventSource : Kind → Option EventSource
  | .fall | .rise => some .edgeDetector
  | .timeout => some .watchdog
  | .trigDone => some .trigTimer
  | .settleDone => some .settleTimer
  | .trigReq | .shutdown | .rdHumidity | .rdTemperature | .rdStaleness | .rdDiagnostics | .rdStatus => some .host
  | .reserved7 | .reservedD | .reservedE | .reservedF => none

/-- Is an event of the collaborator masked in this state: dropped in its step (R248, column "masked by")? -/
def masked (s : State) (i : Instr) : Bool :=
  match eventSource i.kind with
  | some .edgeDetector => !s.facade.active
  | some .watchdog => !s.facade.wdArmed || !s.facade.active
  | some .trigTimer => s.facade.trigPhase == .idle
  | some .settleTimer => s.recovery.recPhase == .idle
  | some .host => false
  | none => false

/-- Does the kind read the Reading: the three reads that answer NEVER_VALID until a frame has been valid (R62, R75)? -/
def readsReading : Kind → Bool
  | .rdHumidity | .rdTemperature | .rdStaleness => true
  | .fall | .rise | .timeout | .settleDone | .trigReq | .trigDone | .shutdown | .reserved7
  | .rdDiagnostics | .rdStatus | .reservedD | .reservedE | .reservedF => false

/-- May a conforming environment present this event now (R72, R73, R251)? A TIMEOUT only while the watchdog is armed, a
TRIG_DONE or SETTLE_DONE only while its delay runs, an edge only while the subscription is held, a well-formed word. -/
def environmentAllows (s : State) (i : Instr) : Bool := i.wellFormed && !masked s i

/-! ## Pin mirrors -/

/-- The mirrors after a list of actions, in order (R76). -/
def mirrorsAfter (f : FacadeState) (as : List Action) : FacadeState := as.foldl FacadeState.mirror f

/-! ## The frame as one number -/

/-- How many payload bits byte `k` of the frame has received when `bit_index` is `i` (R39, R53). -/
def bitsInByte (i : Int) (k : Nat) : Nat := min 8 (i.toNat - 8 * k)

/-- The payload bits received so far as one number, the first bit the most significant (R52 to R54). -/
def receivedBits (d : DecodeState) : Nat :=
  let n := bitsInByte d.bitIndex.toInt
  (((d.humHi.toNat * 2 ^ n 1 + d.humLo.toNat) * 2 ^ n 2 + d.tmpHi.toNat) * 2 ^ n 3 + d.tmpLo.toNat) * 2 ^ n 4 + d.cksAcc.toNat

/-- Events processed one after the other (R9, R58). -/
def runEvents : List Instr → State → Host.Outcome State Fault Refusal
  | [], s => .next s
  | i :: is, s =>
    match exec i s with
    | .next t => runEvents is t
    | .fault f => .fault f
    | .refused r => .refused r

/-- The edges of high pulses, each given by the ticks of its rising and its falling edge. -/
def edgesOf : List (Tick × Tick) → List Instr
  | [] => []
  | (up, down) :: ps => .rise up :: .fall down :: edgesOf ps

/-- No rising edge comes more than T_GAP after the one before, so none starts a new frame attempt (R110). -/
def pacedFrom : Tick → List (Tick × Tick) → Prop
  | _, [] => True
  | before, (up, _) :: ps => ticksBetween before up ≤ 250000 ∧ pacedFrom up ps

/-! ## Invariants -/

/-- What holds of the recovery, the facade and the Reading between steps. -/
structure ChannelInv (s : State) : Prop where
  /-- R31: `consecutive_missing` is in `0..MAX_NO_RESPONSE`. -/
  streak         : s.recovery.consecutiveMissing.toNat ≤ s.cfg.maxNoResponse.val
  /-- R33: `powered = 0` exactly when `rec_phase != IDLE`. -/
  poweredIdle    : s.recovery.powered = true ↔ s.recovery.recPhase = .idle
  /-- R184: without a power line no recovery sequence runs. -/
  recoveryLine   : s.recovery.recPhase ≠ .idle → s.cfg.hasPowerLine = true
  /-- R37, R180, R181: the power line is asserted but for the first settling delay, and constant 0 without one. -/
  powerOut       : s.facade.powerOut = (s.cfg.hasPowerLine && s.recovery.recPhase != .offSettle)
  /-- R37: without an indicator line its mirror is constant 0. -/
  indicatorLine  : s.cfg.hasIndicatorLine = false → s.facade.indicatorOut = false
  /-- R34, R200, R201: the data line is driven low exactly during the trigger window. -/
  dataLine       : s.facade.dataDriveLow = true ↔ s.facade.trigPhase = .asserting
  /-- R201, R207: after shutdown the watchdog stays disarmed. -/
  shutDisarmed   : s.facade.active = false → s.facade.wdArmed = false
  /-- R27: the temperature is in -32767..32767. -/
  temperature    : s.reading.temperatureTenths ≠ 0x8000#16
  /-- R40, R28: a Reading that never was valid holds zeros. -/
  neverValid     : s.reading.readingValid = false →
                     s.reading.humidityTenths = 0#16 ∧ s.reading.temperatureTenths = 0#16 ∧ s.reading.validSince = 0#64

/-- What holds of the frame assembler between steps. -/
structure FrameInv (s : State) : Prop where
  /-- R22, D2: PREAMBLE_START is negative. -/
  config   : s.cfg.wf
  /-- R120: the sequencer is never below PREAMBLE_START. -/
  index    : s.cfg.preambleStart.toInt ≤ s.dec.bitIndex.toInt
  /-- R25, R53: a byte that has received `n` bits is below `2^n`; one that has received none is 0. -/
  humHi    : s.dec.humHi.toNat < 2 ^ bitsInByte s.dec.bitIndex.toInt 0
  /-- As `humHi`. -/
  humLo    : s.dec.humLo.toNat < 2 ^ bitsInByte s.dec.bitIndex.toInt 1
  /-- As `humHi`. -/
  tmpHi    : s.dec.tmpHi.toNat < 2 ^ bitsInByte s.dec.bitIndex.toInt 2
  /-- As `humHi`. -/
  tmpLo    : s.dec.tmpLo.toNat < 2 ^ bitsInByte s.dec.bitIndex.toInt 3
  /-- As `humHi`. -/
  cksAcc   : s.dec.cksAcc.toNat < 2 ^ bitsInByte s.dec.bitIndex.toInt 4
  /-- R26, R117: a poisoned frame attempt has seen a payload pulse (unless POISON_ON_HEADER, D6). -/
  poisoned : s.dec.poisoned = true → s.cfg.poisonOnHeader = false → 0 < s.dec.bitIndex.toInt

end Sys2Proof.Machine
end

