-- ==== Sys2Proof/Certificates/Slice0/Obligations.lean ====
section
/-! DEFINITION. The statements for the provers. A result is stated as the WHOLE next state, so that its frame is in it: what
the equation does not name is as before. A docstring says where a statement rests on a choice that the spec marks as its
own (a `[decision: ...]` of spec/92_eei_decisions.md, a `[derived: ...]` inference) or on one of the model's (a log entry).
That a step's response and action list stand in the fields `response` and `actions` is the model's choice throughout
(notes/assumptions/4.md). -/

open Sys2Proof Sys2Proof.Machine

/-! ## Encoding -/

/-- Decoding and encoding are inverse, on every instruction and on every 36-bit word: no bit is dropped (R70, R71). The codes
are the spec's own decision D13. That an instruction keeps the reserved `arg`, so that encoding gives back every word, is the
model's (notes/assumptions/9.md): R72 says only that the block ignores it. -/
def Obligations.DecodeAndEncodeAreInverse : Prop :=
  (∀ i : Instr, decode (encode i) = i) ∧ (∀ w : EventWord, encode (decode w) = w)

/-- Every word matches exactly one row of the table, and that row's kind is the one decoded (R80, decision D13). -/
def Obligations.EveryWordMatchesExactlyOneRow : Prop :=
  ∀ w : EventWord, ∃ r ∈ opcodeTable, r.matchesWord w = true ∧ r.kind = (decode w).kind ∧
    ∀ r' ∈ opcodeTable, r'.matchesWord w = true → r' = r

/-- A few words written out from R70, R71 and R78: an edge's tick is the low 32 bits, a non-zero reserved `arg` leaves the word
legal (R72), kind 0x7 is reserved. That the decoded instruction keeps the reserved `arg` is the model's
(notes/assumptions/9.md), and so is the five-byte carrier behind the two `decodeTableWord` clauses (notes/assumptions/3.md). -/
def Obligations.WrittenOutWordsDecode : Prop :=
  decode 0x0000F84D0#36 = .fall 1017040#32 ∧ decode 0x100000010#36 = .rise 16#32 ∧
  decode 0x200000000#36 = .timeout 0#32 ∧ decode 0x2DEADBEEF#36 = .timeout 0xDEADBEEF#32 ∧
  decode 0x700000000#36 = .reserved7 0#32 ∧ decode 0xC00000000#36 = .rdStatus 0#32 ∧
  decodeTableWord 40 0x0000F84D0 = some (.fall 1017040#32) ∧ decodeTableWord 40 0x500000000 = some (.trigDone 0#32)

/-- The reserved `arg` of a kind that is no edge does not change the step (R72, decision D22). -/
def Obligations.ReservedArgumentIsIgnored : Prop :=
  ∀ (k : Kind) (a b : BitVec 32) (s : State), k.isEdge = false →
    exec (Instr.ofKind k a) s = exec (Instr.ofKind k b) s

/-- Response words carry the status above the data, action words the code above the argument, with the codes of R74, R75
and R76; two action words are equal only for equal actions (decisions D14, D15). -/
def Obligations.OutputWordsFollowTheCodeTables : Prop :=
  (∀ r : Response, r.word.extractLsb' 128 4 = r.status.code ∧ r.word.extractLsb' 0 128 = r.data) ∧
  Status.ok.code = 0x0#4 ∧ Status.rejectedUnpowered.code = 0x1#4 ∧ Status.rejectedBusy.code = 0x2#4 ∧
  Status.rejectedInactive.code = 0x3#4 ∧ Status.neverValid.code = 0x4#4 ∧ Status.ignored.code = 0x5#4 ∧
  Status.illegalEvent.code = 0xF#4 ∧
  Action.wdDisarm.word = 0x000000000#36 ∧
  (∀ n, (Action.wdArm n).word = 0x1#4 ++ n) ∧
  Action.dataLow.word = 0x200000000#36 ∧ Action.dataInput.word = 0x300000000#36 ∧
  (Action.power false).word = 0x400000000#36 ∧ (Action.power true).word = 0x400000001#36 ∧
  (Action.indicator false).word = 0x500000000#36 ∧ (Action.indicator true).word = 0x500000001#36 ∧
  (∀ d, (Action.timerStart .trig d).word = 0x6#4 ++ (0#1 ++ d)) ∧
  (∀ d, (Action.timerStart .settle d).word = 0x6#4 ++ (1#1 ++ d)) ∧
  Action.unsubscribe.word = 0x700000000#36 ∧
  (∀ a b : Action, a.word = b.word → a = b)

/-! ## The step and reset -/

/-- A presented event is decoded and its meaning run, on the state in which its sample has been taken: the sample is gone
from the pending ones and its `wall_now` is the step's (R9, R70, R77). That inputs wait in a list is the model's choice
(notes/assumptions/2.md). -/
def Obligations.StepRunsTheDecodedEvent : Prop :=
  ∀ (s : State) (p : PortSample) (rest : List PortSample) (i : Instr),
    s.pending = p :: rest → p.rst = false → p.evValid = true → decode p.evWord = i →
    step s = exec i { s with pending := rest, wallNow := p.wallNow }

/-- With no event presented the block is idle: no field but the list of pending samples changes (R9, R262). The model's
choice of a step for an idle port: notes/assumptions/2.md; that it keeps the last response and actions:
notes/assumptions/4.md. -/
def Obligations.StepWithoutAnEventChangesNothing : Prop :=
  (∀ s : State, s.pending = [] → step s = .next s) ∧
  (∀ (s : State) (p : PortSample) (rest : List PortSample),
    s.pending = p :: rest → p.rst = false → p.evValid = false → step s = .next { s with pending := rest })

/-- Reset leaves the record of R40, field by field, in every configuration; every value is the spec's own decision (D4, D5,
D9, D10, D11, D25, D38). The rest is the model's choice: that `State.reset` is the record in the reference configuration, and
the field `cfg` (notes/assumptions/1.md); `wallNow` 0 and `pending` empty (notes/assumptions/2.md); `response` none and
`actions` empty (notes/assumptions/4.md). -/
def Obligations.ResetLeavesTheRecordOfTheTable : Prop :=
  State.reset = State.resetWith Config.reference ∧
  ∀ c : Config, (State.resetWith c).cfg = c ∧
    (State.resetWith c).dec =
      { bitIndex := c.preambleStart, lastRisingTick := 0#32,
        humHi := 0#8, humLo := 0#8, tmpHi := 0#8, tmpLo := 0#8, cksAcc := 0#8, poisoned := false } ∧
    (State.resetWith c).reading =
      { readingValid := false, humidityTenths := 0#16, temperatureTenths := 0#16, validSince := 0#64 } ∧
    (State.resetWith c).errors =
      { badChecksum := 0#32, shortMessage := 0#32, missingMessage := 0#32, sensorReset := 0#32 } ∧
    (State.resetWith c).recovery = { consecutiveMissing := 0#8, recPhase := .idle, powered := true } ∧
    (State.resetWith c).facade =
      { trigPhase := .idle, wdArmed := false, active := true,
        powerOut := c.hasPowerLine, indicatorOut := false, dataDriveLow := false } ∧
    (State.resetWith c).wallNow = 0#64 ∧ (State.resetWith c).pending = [] ∧
    (State.resetWith c).response = none ∧ (State.resetWith c).actions = []

/-- With `rst` asserted no event is accepted, whatever the port presents: the record is that of reset, nothing is answered
and nothing emitted; a timer that was started before the reset and delivers its event afterwards is ignored (R280,
decisions D25, D39). That reset keeps the samples still pending and what it leaves in the model's own fields is the model's
choice (notes/assumptions/2.md, 4.md and 11.md). -/
def Obligations.HardwareResetOverridesEverything : Prop :=
  ∀ (s : State) (p : PortSample) (rest : List PortSample), s.pending = p :: rest → p.rst = true →
    step s = .next { State.resetWith s.cfg with pending := rest } ∧
    ∀ (t : State) (a : BitVec 32), t = { State.resetWith s.cfg with pending := rest } →
      exec (.trigDone a) t = .next (answeredOnly t .ignored 0#128) ∧
      exec (.settleDone a) t = .next (answeredOnly t .ignored 0#128)

/-! ## Tick arithmetic and the discriminator -/

/-- R100: `elapsed` is the difference modulo `2^32`, with its corner cases and its example. -/
def Obligations.ElapsedIsTheDifferenceModuloTheWrap : Prop :=
  (∀ a b : Tick, ((elapsed a b).toNat : Int) = ((b.toNat : Int) - (a.toNat : Int)) % 2 ^ 32) ∧
  (∀ a : Tick, elapsed a a = 0#32) ∧
  (∀ a : Tick, elapsed a (a - 1#32) = 0xFFFFFFFF#32) ∧
  (∀ a b : Tick, b.toNat < a.toNat → (elapsed a b).toNat = 2 ^ 32 - a.toNat + b.toNat) ∧
  elapsed 0xFFFFFFF0#32 0x00000010#32 = 0x20#32

/-- R113: the three classes of pulse widths. -/
def Obligations.PulseWidthsClassifyByTheThresholds : Prop :=
  ∀ w : Tick,
    (w.toNat < 50 → classify w = ⟨false, false⟩) ∧
    (50 ≤ w.toNat ∧ w.toNat < 200 → classify w = ⟨true, false⟩) ∧
    (200 ≤ w.toNat → classify w = ⟨true, true⟩)

/-! ## Masked events -/

/-- A collaborator's event that R248 calls masked is a complete no-op answered IGNORED: an edge after shutdown (R119), a
TIMEOUT while disarmed or inactive (R164), a SETTLE_DONE with no recovery running (R183), a TRIG_DONE with no window running
(R201). The spec's own decisions D17, D20, D21. -/
def Obligations.MaskedEventsAreCompleteNoOps : Prop :=
  (∀ (s : State) (i : Instr), masked s i = true → exec i s = .next (answeredOnly s .ignored 0#128)) ∧
  (∀ (s : State) (a : BitVec 32),
    (s.facade.active = false → masked s (.rise a) = true ∧ masked s (.fall a) = true ∧ masked s (.timeout a) = true) ∧
    (s.facade.wdArmed = false → masked s (.timeout a) = true) ∧
    (s.recovery.recPhase = .idle → masked s (.settleDone a) = true) ∧
    (s.facade.trigPhase = .idle → masked s (.trigDone a) = true))

/-! ## RISE and FALL -/

/-- RISE while active (R110, R111; decisions D2, D5, D7): the tick is recorded; only a gap of more than 250000 from the
previous rising edge starts a new frame attempt. Nothing else changes. -/
def Obligations.RiseRecordsTheTickAndALongGapStartsAFrame : Prop :=
  ∀ (s : State) (tick : Tick), s.facade.active = true →
    exec (.rise tick) s = .next { s with
      dec := if 250000 < ticksBetween s.dec.lastRisingTick tick then
          { bitIndex := s.cfg.preambleStart, lastRisingTick := tick,
            humHi := 0#8, humLo := 0#8, tmpHi := 0#8, tmpLo := 0#8, cksAcc := 0#8, poisoned := false }
        else { s.dec with lastRisingTick := tick }
      response := some ⟨.ok, 0#128⟩
      actions := [] }

/-- FALL on a header bit (R112, R116, R117; decision D6): only the index advances. Under the optional parameter
POISON_ON_HEADER, default false, a pulse of 200 or more also poisons (D6, U25; notes/assumptions/5.md). -/
def Obligations.HeaderFallingEdgeOnlyAdvancesTheIndex : Prop :=
  ∀ (s : State) (tick : Tick), s.facade.active = true → s.dec.bitIndex.toInt < 0 →
    exec (.fall tick) s = .next { s with
      dec := { s.dec with
        bitIndex := BitVec.ofInt 8 (s.dec.bitIndex.toInt + 1)
        poisoned := s.dec.poisoned || (s.cfg.poisonOnHeader && decide (200 ≤ pulseWidth s tick)) }
      response := some ⟨.ok, 0#128⟩
      actions := [] }

/-- FALL while idle (R112, R116, R118; decisions D3, D6): only the index advances, and 127 stays. -/
def Obligations.IdleFallingEdgeOnlyAdvancesTheIndex : Prop :=
  ∀ (s : State) (tick : Tick), s.facade.active = true → 40 ≤ s.dec.bitIndex.toInt →
    exec (.fall tick) s = .next { s with
      dec := { s.dec with bitIndex := BitVec.ofInt 8 (min (s.dec.bitIndex.toInt + 1) 127) }
      response := some ⟨.ok, 0#128⟩
      actions := [] }

/-- FALL on a payload bit before the last (R112, R113, R114, R116, R241): the bit goes into the one byte that its index
selects, a pulse of 200 or more poisons, the index advances; nothing else changes and no action is emitted. -/
def Obligations.PayloadFallingEdgeShiftsOneByte : Prop :=
  ∀ (s : State) (tick : Tick), s.facade.active = true → 0 ≤ s.dec.bitIndex.toInt → s.dec.bitIndex.toInt < 39 →
    exec (.fall tick) s = .next { s with
      dec := {
        bitIndex := BitVec.ofInt 8 (s.dec.bitIndex.toInt + 1)
        lastRisingTick := s.dec.lastRisingTick
        humHi := if s.dec.bitIndex.toInt < 8 then appendBit s.dec.humHi (decide (50 ≤ pulseWidth s tick))
          else s.dec.humHi
        humLo := if 8 ≤ s.dec.bitIndex.toInt ∧ s.dec.bitIndex.toInt < 16 then
            appendBit s.dec.humLo (decide (50 ≤ pulseWidth s tick)) else s.dec.humLo
        tmpHi := if 16 ≤ s.dec.bitIndex.toInt ∧ s.dec.bitIndex.toInt < 24 then
            appendBit s.dec.tmpHi (decide (50 ≤ pulseWidth s tick)) else s.dec.tmpHi
        tmpLo := if 24 ≤ s.dec.bitIndex.toInt ∧ s.dec.bitIndex.toInt < 32 then
            appendBit s.dec.tmpLo (decide (50 ≤ pulseWidth s tick)) else s.dec.tmpLo
        cksAcc := if 32 ≤ s.dec.bitIndex.toInt then appendBit s.dec.cksAcc (decide (50 ≤ pulseWidth s tick))
          else s.dec.cksAcc
        poisoned := s.dec.poisoned || decide (200 ≤ pulseWidth s tick) }
      response := some ⟨.ok, 0#128⟩
      actions := [] }

/-- FALL on payload bit 39 of a frame that is not poisoned and whose bytes add up (R112, R115, R140, R141, R142, R143;
decisions D8, D31): the watchdog is disarmed, the streak of misses cleared, the Reading written whole and the indicator line
cleared where there is one. -/
def Obligations.LastBitOfAValidFramePublishesTheReading : Prop :=
  ∀ (s : State) (tick : Tick), s.facade.active = true → s.dec.bitIndex.toInt = 39 →
    s.dec.poisoned = false → pulseWidth s tick < 200 →
    sumMatches s.dec (appendBit s.dec.cksAcc (decide (50 ≤ pulseWidth s tick))) →
    exec (.fall tick) s = .next { s with
      dec := { s.dec with
        bitIndex := 40#8
        cksAcc := appendBit s.dec.cksAcc (decide (50 ≤ pulseWidth s tick)) }
      reading := {
        readingValid := true
        humidityTenths := BitVec.ofNat 16 (256 * s.dec.humHi.toNat + s.dec.humLo.toNat)
        temperatureTenths := BitVec.ofInt 16 (signedTenths s.dec.tmpHi s.dec.tmpLo)
        validSince := s.wallNow }
      recovery := { s.recovery with consecutiveMissing := 0#8 }
      facade := { s.facade with
        wdArmed := false
        indicatorOut := s.facade.indicatorOut && !s.cfg.hasIndicatorLine }
      response := some ⟨.ok, 0#128⟩
      actions := if s.cfg.hasIndicatorLine then [.wdDisarm, .indicator false] else [.wdDisarm] }

/-- FALL on payload bit 39 of a frame that is poisoned, by this very bit or an earlier one, or whose bytes do not add up
(R112, R115, R140, R144, R145, R242; decision D31): `bad_checksum` counts one, the Reading and the indicator stay; the
watchdog is disarmed and the streak cleared all the same. -/
def Obligations.LastBitOfAnInvalidFrameCountsAChecksumMismatch : Prop :=
  ∀ (s : State) (tick : Tick), s.facade.active = true → s.dec.bitIndex.toInt = 39 →
    ¬ (s.dec.poisoned = false ∧ pulseWidth s tick < 200 ∧
        sumMatches s.dec (appendBit s.dec.cksAcc (decide (50 ≤ pulseWidth s tick)))) →
    exec (.fall tick) s = .next { s with
      dec := { s.dec with
        bitIndex := 40#8
        cksAcc := appendBit s.dec.cksAcc (decide (50 ≤ pulseWidth s tick))
        poisoned := s.dec.poisoned || decide (200 ≤ pulseWidth s tick) }
      errors := { s.errors with badChecksum := countUp s.errors.badChecksum }
      recovery := { s.recovery with consecutiveMissing := 0#8 }
      facade := { s.facade with wdArmed := false }
      response := some ⟨.ok, 0#128⟩
      actions := [.wdDisarm] }

/-- R114: `shift_in(i, b)` writes exactly one of the five bytes, chosen by `i div 8`, and that byte becomes twice its value
plus the bit, modulo 256; within one frame attempt, whose invariant is `FrameInv`, the byte it writes has its top bit clear,
so that the truncation discards no set bit. -/
def Obligations.ShiftInWritesExactlyOneByte : Prop :=
  (∀ (d : DecodeState) (i : Nat) (b : Bool), i ≤ 39 →
    shiftIn d i b = { d with
      humHi := if i < 8 then appendBit d.humHi b else d.humHi
      humLo := if 8 ≤ i ∧ i < 16 then appendBit d.humLo b else d.humLo
      tmpHi := if 16 ≤ i ∧ i < 24 then appendBit d.tmpHi b else d.tmpHi
      tmpLo := if 24 ≤ i ∧ i < 32 then appendBit d.tmpLo b else d.tmpLo
      cksAcc := if 32 ≤ i then appendBit d.cksAcc b else d.cksAcc }) ∧
  (∀ (s : State) (i : Nat), FrameInv s → s.dec.bitIndex.toInt = i →
    (i < 8 → s.dec.humHi.msb = false) ∧ (8 ≤ i ∧ i < 16 → s.dec.humLo.msb = false) ∧
    (16 ≤ i ∧ i < 24 → s.dec.tmpHi.msb = false) ∧ (24 ≤ i ∧ i < 32 → s.dec.tmpLo.msb = false) ∧
    (32 ≤ i ∧ i < 40 → s.dec.cksAcc.msb = false))

/-- R52, an inference the spec marks as its own: the eight bits of a byte arrive most significant first. Eight shifts
leave the first bit at bit 7 and the eighth at bit 0, whatever the register held. -/
def Obligations.EightShiftsPutTheFirstBitHighest : Prop :=
  ∀ (r : Byte) (bits : Fin 8 → Bool) (k : Fin 8),
    ((List.ofFn bits).foldl shiftBit r).getLsbD (7 - k.val) = bits k

/-- The five shift registers are one 40-bit register that takes the first bit highest: while the frame invariant holds, an
accepted payload bit doubles the number received so far and adds the bit (R52, R53, R54, R114). An inference from those
rules. -/
def Obligations.PayloadBitsFormOneBigEndianNumber : Prop :=
  ∀ (s t : State) (tick : Tick), FrameInv s → s.facade.active = true →
    0 ≤ s.dec.bitIndex.toInt → s.dec.bitIndex.toInt ≤ 39 → exec (.fall tick) s = .next t →
    receivedBits t.dec = 2 * receivedBits s.dec + (decide (50 ≤ pulseWidth s tick)).toNat ∧
    (t.dec.bitIndex.toInt = 40 → receivedBits t.dec =
      (((t.dec.humHi.toNat * 256 + t.dec.humLo.toNat) * 256 + t.dec.tmpHi.toNat) * 256 + t.dec.tmpLo.toNat) * 256
        + t.dec.cksAcc.toNat)

/-- A run of high pulses that fits into the rest of a frame attempt is received whole: the index counts the pulses, the number
received so far takes one bit of each, a long one leaves the attempt poisoned, and before the 40th bit nothing is published
or counted (R52, R53, R110, R112, R114, R116). An inference from those rules. -/
def Obligations.PulsesOfOneFrameAreReceivedInOrder : Prop :=
  ∀ (ps : List (Tick × Tick)) (s : State), FrameInv s → s.facade.active = true → 0 ≤ s.dec.bitIndex.toInt →
    s.dec.bitIndex.toInt + ps.length ≤ 40 → pacedFrom s.dec.lastRisingTick ps →
    ∃ t, runEvents (edgesOf ps) s = .next t ∧
      t.dec.bitIndex.toInt = s.dec.bitIndex.toInt + ps.length ∧
      receivedBits t.dec =
        ps.foldl (fun n p => 2 * n + (decide (50 ≤ ticksBetween p.1 p.2)).toNat) (receivedBits s.dec) ∧
      (t.dec.poisoned = true ↔ s.dec.poisoned = true ∨ ∃ p ∈ ps, 200 ≤ ticksBetween p.1 p.2) ∧
      (s.dec.bitIndex.toInt + ps.length < 40 → t.reading = s.reading ∧ t.errors = s.errors ∧ t.recovery = s.recovery)

/-- R39: the state name that each value of `bit_index` selects. -/
def Obligations.StateNamesFollowTheIndex : Prop :=
  ∀ i : BitVec 8,
    (assemblerState i = .awaitingStart ↔ i.toInt < 0) ∧
    (assemblerState i = .humidityHigh ↔ 0 ≤ i.toInt ∧ i.toInt ≤ 7) ∧
    (assemblerState i = .humidityLow ↔ 8 ≤ i.toInt ∧ i.toInt ≤ 15) ∧
    (assemblerState i = .tempHigh ↔ 16 ≤ i.toInt ∧ i.toInt ≤ 23) ∧
    (assemblerState i = .tempLow ↔ 24 ≤ i.toInt ∧ i.toInt ≤ 31) ∧
    (assemblerState i = .checksum ↔ 32 ≤ i.toInt ∧ i.toInt ≤ 39) ∧
    (assemblerState i = .complete ↔ 40 ≤ i.toInt)

/-! ## Value decoding and the conditions -/

/-- R141 and R142 (decision D8): humidity is the big-endian number of its bytes, temperature a sign and a magnitude turned
into two's complement, never -32768; the physical values are exactly a tenth of each, as rationals (R146; that nothing is
rounded: DEDUCED, notes/assumptions/15.md). -/
def Obligations.ValueDecodingIsExact : Prop :=
  ∀ hi lo : Byte,
    (humRaw hi lo).toNat = 256 * hi.toNat + lo.toNat ∧
    (tmpRaw hi lo).toInt = signedTenths hi lo ∧
    -32767 ≤ (tmpRaw hi lo).toInt ∧ (tmpRaw hi lo).toInt ≤ 32767 ∧
    (∀ r : Reading, r.humidityTenths = humRaw hi lo →
      physicalHumidity r * 10 = ((256 * hi.toNat + lo.toNat : Nat) : Rat)) ∧
    (∀ r : Reading, r.temperatureTenths = tmpRaw hi lo → physicalTemperature r * 10 = (signedTenths hi lo : Rat))

/-- R140: a frame is valid exactly if its payload bytes add up to the checksum byte modulo 256 and it is not poisoned; the
step then publishes, and otherwise raises ChecksumMismatch. -/
def Obligations.ValidityIsTheSumAndNoPoison : Prop :=
  (∀ d : DecodeState, frameValid d = true ↔ (sumMatches d d.cksAcc ∧ d.poisoned = false)) ∧
  (∀ s : State, sumMatches s.dec s.dec.cksAcc ∧ s.dec.poisoned = false → s.validateAndPublish = s.publish) ∧
  (∀ s : State, ¬ (sumMatches s.dec s.dec.cksAcc ∧ s.dec.poisoned = false) →
    s.validateAndPublish = s.raise .checksumMismatch)

/-- R143: `publish()`, with the emission of A_INDICATOR(0) where an indicator line is configured and nowhere else; no event
writes the Reading but as `publish()` does. -/
def Obligations.PublishWritesTheReadingWhole : Prop :=
  (∀ s : State, s.publish = { s with
    reading := {
      readingValid := true
      humidityTenths := humRaw s.dec.humHi s.dec.humLo
      temperatureTenths := tmpRaw s.dec.tmpHi s.dec.tmpLo
      validSince := s.wallNow }
    facade := if s.cfg.hasIndicatorLine then { s.facade with indicatorOut := false } else s.facade
    actions := if s.cfg.hasIndicatorLine then s.actions ++ [.indicator false] else s.actions }) ∧
  (∀ (i : Instr) (s t : State), exec i s = .next t → t.reading ≠ s.reading → t.reading = t.publish.reading)

/-- R144: ChecksumMismatch increments `bad_checksum`, saturating, and changes nothing else. -/
def Obligations.ChecksumMismatchOnlyCounts : Prop :=
  ∀ s : State, s.raise .checksumMismatch =
    { s with errors := { s.errors with badChecksum := countUp s.errors.badChecksum } }

/-- R162 and R163, the outcomes of an accepted timeout from bit 8 on: in the range 8..38 ShortMessage, which increments
`short_message`, saturating, and clears the streak; from bit 39 on only the streak is cleared. Nothing is validated or
published, and outside 8..38 `short_message` stays. -/
def Obligations.ShortMessageAndCompleteClearTheStreak : Prop :=
  (∀ s : State, s.raise .shortMessage =
    { s with
      errors := { s.errors with shortMessage := countUp s.errors.shortMessage }
      recovery := { s.recovery with consecutiveMissing := 0#8 } }) ∧
  (∀ (s : State) (a : BitVec 32), s.facade.active = true → s.facade.wdArmed = true →
    ∃ t, exec (.timeout a) s = .next t ∧ t.dec = s.dec ∧ t.reading = s.reading ∧
      (8 ≤ s.dec.bitIndex.toInt ∧ s.dec.bitIndex.toInt < 39 →
        t.errors = { s.errors with shortMessage := countUp s.errors.shortMessage } ∧
        t.recovery = { s.recovery with consecutiveMissing := 0#8 }) ∧
      (39 ≤ s.dec.bitIndex.toInt →
        t.errors = s.errors ∧ t.recovery = { s.recovery with consecutiveMissing := 0#8 }) ∧
      (s.dec.bitIndex.toInt < 8 → t.errors.shortMessage = s.errors.shortMessage))

/-! ## TIMEOUT -/

/-- TIMEOUT accepted before bit 8, the streak not past MAX_NO_RESPONSE (R160, R161; decisions D20, D23). -/
def Obligations.MissingMessageLengthensTheStreak : Prop :=
  ∀ (s : State) (a : BitVec 32), s.facade.active = true → s.facade.wdArmed = true → s.dec.bitIndex.toInt < 8 →
    s.recovery.consecutiveMissing.toNat + 1 ≤ s.cfg.maxNoResponse.val →
    exec (.timeout a) s = .next { s with
      errors := { s.errors with missingMessage := countUp s.errors.missingMessage }
      recovery := { s.recovery with
        consecutiveMissing := BitVec.ofNat 8 (s.recovery.consecutiveMissing.toNat + 1) }
      facade := { s.facade with wdArmed := false }
      response := some ⟨.ok, 0#128⟩
      actions := [.wdDisarm] }

/-- TIMEOUT accepted before bit 8 with the streak going past MAX_NO_RESPONSE, a power line and no recovery running: the power
cycle starts (R160, R161, R180, R253; decisions D17, D20, D23). Above the range of R31, at `consecutive_missing = 255`, that the
sum is compared before it is narrowed is the model's reading (DEDUCED, notes/assumptions/6.md). -/
def Obligations.TooManyMissesStartTheRecovery : Prop :=
  ∀ (s : State) (a : BitVec 32), s.facade.active = true → s.facade.wdArmed = true → s.dec.bitIndex.toInt < 8 →
    s.cfg.maxNoResponse.val < s.recovery.consecutiveMissing.toNat + 1 →
    s.cfg.hasPowerLine = true → s.recovery.recPhase = .idle →
    exec (.timeout a) s = .next { s with
      errors := { s.errors with missingMessage := countUp s.errors.missingMessage }
      recovery := { consecutiveMissing := 0#8, recPhase := .offSettle, powered := false }
      facade := { s.facade with wdArmed := false, powerOut := false }
      response := some ⟨.ok, 0#128⟩
      actions := [.wdDisarm, .power false, .timerStart .settle s.cfg.settleDelay] }

/-- TIMEOUT accepted before bit 8 with the streak going past MAX_NO_RESPONSE where no power cycle can start: without a power
line `sensor_reset` counts the crossing (R184, decision D19), and while a recovery runs the request is dropped (R185,
decision D18). Above the range of R31, at `consecutive_missing = 255`, that the sum is compared before it is narrowed is the
model's reading (DEDUCED, notes/assumptions/6.md). -/
def Obligations.TooManyMissesWithoutANewPowerCycle : Prop :=
  ∀ (s : State) (a : BitVec 32), s.facade.active = true → s.facade.wdArmed = true → s.dec.bitIndex.toInt < 8 →
    s.cfg.maxNoResponse.val < s.recovery.consecutiveMissing.toNat + 1 →
    (s.cfg.hasPowerLine = false ∨ s.recovery.recPhase ≠ .idle) →
    exec (.timeout a) s = .next { s with
      errors := { s.errors with
        missingMessage := countUp s.errors.missingMessage
        sensorReset := if s.cfg.hasPowerLine then s.errors.sensorReset else countUp s.errors.sensorReset }
      recovery := { s.recovery with consecutiveMissing := 0#8 }
      facade := { s.facade with wdArmed := false }
      response := some ⟨.ok, 0#128⟩
      actions := [.wdDisarm] }

/-- TIMEOUT accepted from bit 8 on: ShortMessage before bit 39 (R162), Complete from bit 39 on (R163), which counts nothing
(R160; decisions D20, D23). -/
def Obligations.TimeoutFromBitEightOnClearsTheStreak : Prop :=
  ∀ (s : State) (a : BitVec 32), s.facade.active = true → s.facade.wdArmed = true → 8 ≤ s.dec.bitIndex.toInt →
    exec (.timeout a) s = .next { s with
      errors := if s.dec.bitIndex.toInt < 39 then
          { s.errors with shortMessage := countUp s.errors.shortMessage } else s.errors
      recovery := { s.recovery with consecutiveMissing := 0#8 }
      facade := { s.facade with wdArmed := false }
      response := some ⟨.ok, if s.dec.bitIndex.toInt < 39 then 1#128 else 2#128⟩
      actions := [.wdDisarm] }

/-- R161, run over a streak: from a cleared streak the power cycle starts at the `(MAX_NO_RESPONSE + 1)`-th accepted TIMEOUT
before bit 8 and at none before, the watchdog being armed again each time and nothing else happening. -/
def Obligations.RecoveryFiresExactlyAfterTheThreshold : Prop :=
  ∀ (s : State) (run : Nat → State), s.facade.active = true → s.dec.bitIndex.toInt < 8 → s.cfg.hasPowerLine = true →
    s.recovery = { consecutiveMissing := 0#8, recPhase := .idle, powered := true } →
    run 0 = s →
    (∀ k, k ≤ s.cfg.maxNoResponse.val →
      exec (.timeout 0#32) { run k with facade := { (run k).facade with wdArmed := true } } = .next (run (k + 1))) →
    (∀ k, k ≤ s.cfg.maxNoResponse.val →
      (run k).recovery = { consecutiveMissing := BitVec.ofNat 8 k, recPhase := .idle, powered := true }) ∧
    (run (s.cfg.maxNoResponse.val + 1)).recovery = { consecutiveMissing := 0#8, recPhase := .offSettle, powered := false }

/-! ## SETTLE_DONE -/

/-- SETTLE_DONE in the first settling delay (R181; decisions D17, D21): the power line is asserted again. -/
def Obligations.FirstSettlingDelayEndsWithPowerOn : Prop :=
  ∀ (s : State) (a : BitVec 32), s.recovery.recPhase = .offSettle →
    exec (.settleDone a) s = .next { s with
      recovery := { s.recovery with recPhase := .onSettle }
      facade := { s.facade with powerOut := true }
      response := some ⟨.ok, 0#128⟩
      actions := [.power true, .timerStart .settle s.cfg.settleDelay] }

/-- SETTLE_DONE in the second settling delay (R182, R254; decision D17): the recovery returns. -/
def Obligations.SecondSettlingDelayEndsTheRecovery : Prop :=
  ∀ (s : State) (a : BitVec 32), s.recovery.recPhase = .onSettle →
    exec (.settleDone a) s = .next { s with
      recovery := { s.recovery with recPhase := .idle, powered := true }
      errors := { s.errors with sensorReset := countUp s.errors.sensorReset }
      response := some ⟨.ok, 0#128⟩
      actions := [] }

/-! ## TRIG_REQ, TRIG_DONE, SHUTDOWN -/

/-- TRIG_REQ accepted (R200; decisions D16, D29, D30). -/
def Obligations.AcceptedTriggerStartsTheWindow : Prop :=
  ∀ (s : State) (a : BitVec 32), s.facade.active = true → s.recovery.powered = true → s.facade.trigPhase = .idle →
    exec (.trigReq a) s = .next { s with
      facade := { s.facade with
        trigPhase := .asserting
        indicatorOut := s.facade.indicatorOut || s.cfg.hasIndicatorLine
        dataDriveLow := true }
      response := some ⟨.ok, 0#128⟩
      actions := (if s.cfg.hasIndicatorLine then [.indicator true] else []) ++
        [.dataLow, .timerStart .trig s.cfg.triggerLowMs] }

/-- TRIG_REQ rejected: the first of the three tests that fails gives the status, and nothing else changes (R187, R200, R246;
decisions D16, D29). -/
def Obligations.RejectedTriggerIsACompleteNoOp : Prop :=
  ∀ (s : State) (a : BitVec 32),
    (s.facade.active = false → exec (.trigReq a) s = .next (answeredOnly s .rejectedInactive 0#128)) ∧
    (s.facade.active = true → s.recovery.powered = false →
      exec (.trigReq a) s = .next (answeredOnly s .rejectedUnpowered 0#128)) ∧
    (s.facade.active = true → s.recovery.powered = true → s.facade.trigPhase = .asserting →
      exec (.trigReq a) s = .next (answeredOnly s .rejectedBusy 0#128))

/-- TRIG_DONE at the end of a window: the line is released and, while active, the watchdog armed; `powered` is not tested
(R201, R291; decisions D16, D21, D37, D40). -/
def Obligations.EndOfTheWindowReleasesTheLineAndArms : Prop :=
  ∀ (s : State) (a : BitVec 32), s.facade.trigPhase = .asserting →
    exec (.trigDone a) s = .next { s with
      facade := { s.facade with
        trigPhase := .idle
        dataDriveLow := false
        wdArmed := s.facade.wdArmed || s.facade.active }
      response := some ⟨.ok, 0#128⟩
      actions := .dataInput :: (if s.facade.active then [.wdArm s.cfg.wdWindowMs] else []) }

/-- SHUTDOWN, the first and every later one (R207; decision D21). -/
def Obligations.ShutdownDisarmsAndUnsubscribesOnce : Prop :=
  ∀ (s : State) (a : BitVec 32),
    (s.facade.active = true → exec (.shutdown a) s = .next { s with
      facade := { s.facade with wdArmed := false, active := false }
      response := some ⟨.ok, 0#128⟩
      actions := [.wdDisarm, .unsubscribe] }) ∧
    (s.facade.active = false → exec (.shutdown a) s = .next (answeredOnly s .ok 0#128))

/-! ## Reads and reserved kinds -/

/-- The three reads of the Reading once it is valid (R202, R203, R204; decisions D8, D9, D12): humidity unsigned, temperature
as 16 bits of two's complement, staleness modulo `2^64`; all other data bits are 0 and nothing else changes. -/
def Obligations.ReadsOfAValidReadingReturnIt : Prop :=
  ∀ (s : State) (a : BitVec 32), s.reading.readingValid = true →
    exec (.rdHumidity a) s = .next (answeredOnly s .ok (BitVec.ofNat 128 s.reading.humidityTenths.toNat)) ∧
    exec (.rdTemperature a) s = .next (answeredOnly s .ok (0#112 ++ s.reading.temperatureTenths)) ∧
    exec (.rdStaleness a) s = .next (answeredOnly s .ok (BitVec.ofInt 128
      (((s.wallNow.toNat : Int) - (s.reading.validSince.toNat : Int)) % 2 ^ 64)))

/-- The three reads of the Reading before any frame was valid: NEVER_VALID with data 0 (R202, R203, R204; decision D9). -/
def Obligations.ReadsBeforeAnyValidFrameSaySo : Prop :=
  ∀ (s : State) (a : BitVec 32), s.reading.readingValid = false →
    exec (.rdHumidity a) s = .next (answeredOnly s .neverValid 0#128) ∧
    exec (.rdTemperature a) s = .next (answeredOnly s .neverValid 0#128) ∧
    exec (.rdStaleness a) s = .next (answeredOnly s .neverValid 0#128)

/-- RD_DIAGNOSTICS returns the four counters of one instant, `bad_checksum` lowest (R205; decision D41). -/
def Obligations.DiagnosticsReturnTheFourCounters : Prop :=
  ∀ (s : State) (a : BitVec 32), ∃ d : Data,
    exec (.rdDiagnostics a) s = .next (answeredOnly s .ok d) ∧
    d.extractLsb' 0 32 = s.errors.badChecksum ∧ d.extractLsb' 32 32 = s.errors.shortMessage ∧
    d.extractLsb' 64 32 = s.errors.missingMessage ∧ d.extractLsb' 96 32 = s.errors.sensorReset

/-- RD_STATUS returns the flags, the sequencer and the streak, each at its place, the upper 104 bits 0 (R206; decision D24). -/
def Obligations.StatusReturnsTheFlagsAndTheSequencer : Prop :=
  ∀ (s : State) (a : BitVec 32), ∃ d : Data,
    exec (.rdStatus a) s = .next (answeredOnly s .ok d) ∧
    d.getLsbD 0 = s.recovery.powered ∧ d.getLsbD 1 = s.facade.active ∧ d.getLsbD 2 = s.facade.wdArmed ∧
    (d.getLsbD 3 = true ↔ s.facade.trigPhase = .asserting) ∧
    d.extractLsb' 4 2 = (match s.recovery.recPhase with | .idle => 0#2 | .offSettle => 1#2 | .onSettle => 2#2) ∧
    d.getLsbD 6 = s.dec.poisoned ∧ d.getLsbD 7 = s.reading.readingValid ∧
    d.extractLsb' 8 8 = s.dec.bitIndex ∧ d.extractLsb' 16 8 = s.recovery.consecutiveMissing ∧
    d.extractLsb' 24 104 = 0#104

/-- An event of a reserved kind changes nothing, emits nothing and is answered `(ILLEGAL_EVENT, 0)` (R73, R208; decision
D22). -/
def Obligations.ReservedKindsAreIllegalEvents : Prop :=
  ∀ (s : State) (a : BitVec 32),
    exec (.reserved7 a) s = .next (answeredOnly s .illegalEvent 0#128) ∧
    exec (.reservedD a) s = .next (answeredOnly s .illegalEvent 0#128) ∧
    exec (.reservedE a) s = .next (answeredOnly s .illegalEvent 0#128) ∧
    exec (.reservedF a) s = .next (answeredOnly s .illegalEvent 0#128)

/-! ## Rules about the whole machine -/

/-- Every step answers a next state: no condition stops the block and from no state is an event left unprocessed (R247;
notes/assumptions/10.md). The steps of an idle port are the model's choice (notes/assumptions/2.md). -/
def Obligations.NoStateStopsTheBlock : Prop :=
  ∀ s : State, ∃ t : State, step s = .next t

/-- R57, an inference the spec marks as its own: no read changes a field or emits an action, and no read runs into anything
but OK or NEVER_VALID. -/
def Obligations.ReadsHaveNoSideEffects : Prop :=
  ∀ (k : Kind) (a : BitVec 32) (s : State), k.isRead = true →
    ∃ (st : Status) (d : Data), exec (Instr.ofKind k a) s = .next (answeredOnly s st d) ∧ (st = .ok ∨ st = .neverValid)

/-- Every status but OK goes with a complete no-op and data 0: no field of the record changes and no action is emitted
(R75, R247). -/
def Obligations.EveryOtherStatusIsACompleteNoOp : Prop :=
  ∀ (i : Instr) (s t : State) (r : Response), exec i s = .next t → t.response = some r → r.status ≠ .ok →
    t = answeredOnly s r.status 0#128

/-- The status of every step is the one that R75 lists for its kind and state, and the OK rows are what is left: IGNORED exactly
for a collaborator's event that R248 calls masked, each rejection exactly for a TRIG_REQ whose own test is the first to fail
(R200), NEVER_VALID exactly for a read of a Reading that never was valid (R62), ILLEGAL_EVENT exactly for a reserved kind
(decisions D9, D14, D16, D22). -/
def Obligations.IgnoredExactlyWhenMasked : Prop :=
  ∀ (i : Instr) (s : State), ∃ (t : State) (r : Response), exec i s = .next t ∧ t.response = some r ∧
    (r.status = .ignored ↔ masked s i = true) ∧
    (r.status = .illegalEvent ↔ i.kind.isReserved = true) ∧
    (r.status = .rejectedInactive ↔ i.kind = .trigReq ∧ s.facade.active = false) ∧
    (r.status = .rejectedUnpowered ↔ i.kind = .trigReq ∧ s.facade.active = true ∧ s.recovery.powered = false) ∧
    (r.status = .rejectedBusy ↔
      i.kind = .trigReq ∧ s.facade.active = true ∧ s.recovery.powered = true ∧ s.facade.trigPhase = .asserting) ∧
    (r.status = .neverValid ↔ readsReading i.kind = true ∧ s.reading.readingValid = false)

/-- R28: the Reading is written by nothing but the last bit of a valid frame, and then all four fields together. -/
def Obligations.OnlyAValidFrameWritesTheReading : Prop :=
  ∀ (i : Instr) (s t : State), exec i s = .next t → t.reading ≠ s.reading →
    (∃ tick, i = .fall tick) ∧ s.facade.active = true ∧ s.dec.bitIndex.toInt = 39 ∧
    sumMatches t.dec t.dec.cksAcc ∧ t.dec.poisoned = false ∧
    t.reading =
      { readingValid := true, validSince := s.wallNow,
        humidityTenths := humRaw t.dec.humHi t.dec.humLo, temperatureTenths := tmpRaw t.dec.tmpHi t.dec.tmpLo }

/-- R23 and R120, inferences the spec marks as its own: the sequencer changes only by an accepted RISE after a long gap, to
PREAMBLE_START, or by an accepted FALL, by one, and 127 stays. -/
def Obligations.SequencerTransitionsAreComplete : Prop :=
  ∀ (i : Instr) (s t : State), exec i s = .next t → t.dec.bitIndex ≠ s.dec.bitIndex →
    s.facade.active = true ∧
    ((∃ tick, i = .rise tick ∧ 250000 < ticksBetween s.dec.lastRisingTick tick ∧ t.dec.bitIndex = s.cfg.preambleStart) ∨
     (∃ tick, i = .fall tick ∧ t.dec.bitIndex.toInt = s.dec.bitIndex.toInt + 1 ∧ s.dec.bitIndex.toInt ≤ 126))

/-- R24 and R26 (decision D5): the reference tick is written only by an accepted RISE, which writes its own tick; the poison
mark is cleared only by the frame reset of a RISE after a long gap and set only by an accepted FALL whose pulse is 200 or
more, on a payload bit (or, under POISON_ON_HEADER, on a header bit: notes/assumptions/5.md). -/
def Obligations.ReferenceTickAndPoisonHaveOneWriterEach : Prop :=
  ∀ (i : Instr) (s t : State), exec i s = .next t →
    (t.dec.lastRisingTick ≠ s.dec.lastRisingTick → i = .rise t.dec.lastRisingTick ∧ s.facade.active = true) ∧
    (s.dec.poisoned = true → t.dec.poisoned = false →
      ∃ tick, i = .rise tick ∧ s.facade.active = true ∧ 250000 < ticksBetween s.dec.lastRisingTick tick) ∧
    (s.dec.poisoned = false → t.dec.poisoned = true →
      ∃ tick, i = .fall tick ∧ s.facade.active = true ∧ 200 ≤ pulseWidth s tick ∧ s.dec.bitIndex.toInt ≤ 39 ∧
        (0 ≤ s.dec.bitIndex.toInt ∨ s.cfg.poisonOnHeader = true))

/-- R29, R30: no event lowers an error counter and none raises one by more than one; no counter's value, nor a pin mirror's,
steers anything: with other counters and other pin levels the same event leads to the same Decode State, Reading and
Recovery State, the same phases and gates, the same actions, and, but for RD_DIAGNOSTICS, the same response (R37). -/
def Obligations.CountersRiseByAtMostOneAndSteerNothing : Prop :=
  (∀ (i : Instr) (s t : State), exec i s = .next t →
    (s.errors.badChecksum.toNat ≤ t.errors.badChecksum.toNat ∧ t.errors.badChecksum.toNat ≤ s.errors.badChecksum.toNat + 1) ∧
    (s.errors.shortMessage.toNat ≤ t.errors.shortMessage.toNat ∧
      t.errors.shortMessage.toNat ≤ s.errors.shortMessage.toNat + 1) ∧
    (s.errors.missingMessage.toNat ≤ t.errors.missingMessage.toNat ∧
      t.errors.missingMessage.toNat ≤ s.errors.missingMessage.toNat + 1) ∧
    (s.errors.sensorReset.toNat ≤ t.errors.sensorReset.toNat ∧
      t.errors.sensorReset.toNat ≤ s.errors.sensorReset.toNat + 1)) ∧
  (∀ (i : Instr) (s t : State) (e : ErrorCounters) (p q d : Bool), exec i s = .next t →
    ∃ t', exec i { s with
        errors := e
        facade := { s.facade with powerOut := p, indicatorOut := q, dataDriveLow := d } } = .next t' ∧
      t'.cfg = t.cfg ∧ t'.dec = t.dec ∧ t'.reading = t.reading ∧ t'.recovery = t.recovery ∧
      t'.facade.trigPhase = t.facade.trigPhase ∧ t'.facade.wdArmed = t.facade.wdArmed ∧
      t'.facade.active = t.facade.active ∧ t'.actions = t.actions ∧
      (i.kind ≠ .rdDiagnostics → t'.response = t.response))

/-- R188, an inference the spec marks as its own: the transitions of `rec_phase`, complete. -/
def Obligations.RecoveryPhaseTransitionsAreComplete : Prop :=
  ∀ (i : Instr) (s t : State), exec i s = .next t → t.recovery.recPhase ≠ s.recovery.recPhase →
    (s.recovery.recPhase = .idle ∧ t.recovery.recPhase = .offSettle ∧ i.kind = .timeout ∧ s.cfg.hasPowerLine = true ∧
      t.recovery.powered = false) ∨
    (s.recovery.recPhase = .offSettle ∧ t.recovery.recPhase = .onSettle ∧ i.kind = .settleDone) ∨
    (s.recovery.recPhase = .onSettle ∧ t.recovery.recPhase = .idle ∧ i.kind = .settleDone ∧ t.recovery.powered = true)

/-- The pin mirrors, `wd_armed` and `active` are what the emitted actions command, in emission order (R35, R36, R37, R76;
decision D15). -/
def Obligations.MirrorsFollowTheEmittedActions : Prop :=
  ∀ (i : Instr) (s t : State), exec i s = .next t →
    t.facade = { mirrorsAfter s.facade t.actions with trigPhase := t.facade.trigPhase }

/-- No action commands a line that the channel does not have: A_POWER only with a power line, while the channel invariant
holds, and A_INDICATOR only with an indicator line (R37, R76). -/
def Obligations.AbsentLinesAreNeverCommanded : Prop :=
  ∀ (i : Instr) (s t : State), ChannelInv s → exec i s = .next t →
    (∀ b, .power b ∈ t.actions → s.cfg.hasPowerLine = true) ∧
    (∀ b, .indicator b ∈ t.actions → s.cfg.hasIndicatorLine = true)

/-- Shutdown is final (R36, R293; decision D21): however long the block runs without a hardware reset, an inactive channel
stays inactive, and no edge, timeout or trigger has left a trace in the Decode State, the Reading, the streak or the
counters that those events raise. -/
def Obligations.ShutdownIsFinalUntilReset : Prop :=
  ∀ (s : State) (k : Nat), s.facade.active = false → (∀ p ∈ s.pending, p.rst = false) →
    ∃ t, Host.Core.run core k s = .next t ∧ t.facade.active = false ∧ t.dec = s.dec ∧ t.reading = s.reading ∧
      t.recovery.consecutiveMissing = s.recovery.consecutiveMissing ∧
      t.errors.badChecksum = s.errors.badChecksum ∧ t.errors.shortMessage = s.errors.shortMessage ∧
      t.errors.missingMessage = s.errors.missingMessage

/-- No event writes the configuration, which is fixed before reset is released (R281), or the model's own input fields: the
sampled wall clock and the samples still to come (notes/assumptions/2.md). No step at all, hardware reset included, writes
the configuration (notes/assumptions/1.md and 11.md). -/
def Obligations.InputsAndConfigurationAreReadOnly : Prop :=
  (∀ (i : Instr) (s t : State), exec i s = .next t → t.cfg = s.cfg ∧ t.wallNow = s.wallNow ∧ t.pending = s.pending) ∧
  (∀ s t : State, step s = .next t → t.cfg = s.cfg ∧ t.pending = s.pending.tail)

/-! ## Invariants -/

/-- The invariants hold right after reset, in every configuration whose PREAMBLE_START is negative (R40; reset values:
decisions D4, D25, D38; that `State.reset` is in the reference configuration: notes/assumptions/1.md). -/
def Obligations.InvariantsHoldAtReset : Prop :=
  ChannelInv State.reset ∧ FrameInv State.reset ∧
  ∀ c : Config, c.wf → ChannelInv (State.resetWith c) ∧ FrameInv (State.resetWith c)

/-- Every step keeps the invariant of the recovery, the facade and the Reading: the streak within its threshold (R31),
`powered = 0` exactly during a recovery (R33), the pin mirrors tied to the phases (R37), no armed watchdog after shutdown
(R201, R207), the temperature in range (R27). -/
def Obligations.EveryStepKeepsTheChannelInvariant : Prop :=
  ∀ s t : State, ChannelInv s → step s = .next t → ChannelInv t

/-- Every step keeps the invariant of the frame assembler: the index never below PREAMBLE_START (R120), each byte below two
to the number of bits it has received, so that no shift discards a set bit (R25), poison only from a payload pulse (R26). -/
def Obligations.EveryStepKeepsTheFrameInvariant : Prop :=
  ∀ s t : State, FrameInv s → step s = .next t → FrameInv t
end

