-- ==== Sys2Proof/Laws/Encoding.lean ====
section
/-! SUPPORT. Small facts about kinds, codes and instructions. -/

namespace Sys2Proof.Laws

/-- An instruction is its kind and its argument. -/
@[simp] theorem ofKind_kind_arg (i : Instr) : Instr.ofKind i.kind i.arg = i := by cases i <;> rfl

@[simp] theorem kind_ofKind (k : Kind) (a : BitVec 32) : (Instr.ofKind k a).kind = k := by cases k <;> rfl

@[simp] theorem arg_ofKind (k : Kind) (a : BitVec 32) : (Instr.ofKind k a).arg = a := by cases k <;> rfl

/-- The code of a kind stands for that kind. -/
@[simp] theorem kindOfCode_code (k : Kind) : kindOfCode k.code = k := by cases k <;> rfl

/-- The kind of a code has that code. -/
@[simp] theorem code_kindOfCode (c : BitVec 4) : (kindOfCode c).code = c := by revert c; decide

/-- The upper part of two fields put together. -/
theorem extract_upper {m n : Nat} (c : BitVec m) (a : BitVec n) : (c ++ a).extractLsb' n m = c := by
  apply BitVec.eq_of_getLsbD_eq
  intro j hj
  rw [BitVec.getLsbD_extractLsb', BitVec.getLsbD_append]
  simp [hj]

/-- The lower part of two fields put together. -/
theorem extract_lower {m n : Nat} (c : BitVec m) (a : BitVec n) : (c ++ a).extractLsb' 0 n = a := by
  apply BitVec.eq_of_getLsbD_eq
  intro j hj
  rw [BitVec.getLsbD_extractLsb', BitVec.getLsbD_append]
  simp [hj]

/-- A part of a word that lies in the lower of two fields. -/
theorem extract_in_lower {m n : Nat} (c : BitVec m) (a : BitVec n) (i k : Nat) (h : i + k ≤ n) :
    (c ++ a).extractLsb' i k = a.extractLsb' i k := by
  apply BitVec.eq_of_getLsbD_eq
  intro j hj
  rw [BitVec.getLsbD_extractLsb', BitVec.getLsbD_append, BitVec.getLsbD_extractLsb', if_pos (by omega)]

/-- A part of a word that lies in the upper of two fields. -/
theorem extract_in_upper {m n : Nat} (c : BitVec m) (a : BitVec n) (i k : Nat) :
    (c ++ a).extractLsb' (n + i) k = c.extractLsb' i k := by
  apply BitVec.eq_of_getLsbD_eq
  intro j hj
  rw [BitVec.getLsbD_extractLsb', BitVec.getLsbD_append, BitVec.getLsbD_extractLsb', if_neg (by omega),
    show n + i + j - n = i + j by omega]

/-- A bit of a word that lies in the lower of two fields. -/
theorem bit_in_lower {m n : Nat} (c : BitVec m) (a : BitVec n) (j : Nat) (h : j < n) :
    (c ++ a).getLsbD j = a.getLsbD j := by
  rw [BitVec.getLsbD_append, if_pos h]

/-- A bit of a word that lies in the upper of two fields. -/
theorem bit_in_upper {m n : Nat} (c : BitVec m) (a : BitVec n) (j : Nat) : (c ++ a).getLsbD (n + j) = c.getLsbD j := by
  rw [BitVec.getLsbD_append, if_neg (by omega), show n + j - n = j by omega]

/-- A word is its upper field above its lower field. -/
theorem append_extract {m n : Nat} (w : BitVec (m + n)) : w.extractLsb' n m ++ w.extractLsb' 0 n = w := by
  apply BitVec.eq_of_getLsbD_eq
  intro j hj
  rw [BitVec.getLsbD_append, BitVec.getLsbD_extractLsb', BitVec.getLsbD_extractLsb']
  by_cases h : j < n
  · simp [h]
  · have h1 : j - n < m := by omega
    have h2 : n + (j - n) = j := by omega
    simp [h, h1, h2]

end Sys2Proof.Laws
end

