-- ==== Sys2Proof/Laws/State.lean ====
section
/-! SUPPORT. One lemma per field per update of the state: what each unconditional operation of Machine/Ops.lean writes, and
that it leaves every other field alone. Later proofs cite these (they are simp lemmas) and unfold no record update. -/

namespace Sys2Proof.Machine

/-! ## `takeSample` -/

@[simp] theorem takeSample_cfg (s : State) (p : PortSample) (rest : List PortSample) : (s.takeSample p rest).cfg = s.cfg := rfl
@[simp] theorem takeSample_dec (s : State) (p : PortSample) (rest : List PortSample) : (s.takeSample p rest).dec = s.dec := rfl
@[simp] theorem takeSample_reading (s : State) (p : PortSample) (rest : List PortSample) : (s.takeSample p rest).reading = s.reading := rfl
@[simp] theorem takeSample_errors (s : State) (p : PortSample) (rest : List PortSample) : (s.takeSample p rest).errors = s.errors := rfl
@[simp] theorem takeSample_recovery (s : State) (p : PortSample) (rest : List PortSample) : (s.takeSample p rest).recovery = s.recovery := rfl
@[simp] theorem takeSample_facade (s : State) (p : PortSample) (rest : List PortSample) : (s.takeSample p rest).facade = s.facade := rfl
@[simp] theorem takeSample_wallNow (s : State) (p : PortSample) (rest : List PortSample) : (s.takeSample p rest).wallNow = p.wallNow := rfl
@[simp] theorem takeSample_pending (s : State) (p : PortSample) (rest : List PortSample) : (s.takeSample p rest).pending = rest := rfl
@[simp] theorem takeSample_response (s : State) (p : PortSample) (rest : List PortSample) : (s.takeSample p rest).response = s.response := rfl
@[simp] theorem takeSample_actions (s : State) (p : PortSample) (rest : List PortSample) : (s.takeSample p rest).actions = s.actions := rfl

/-! ## `present` -/

@[simp] theorem present_cfg (s : State) (w : EventWord) : (s.present w).cfg = s.cfg := rfl
@[simp] theorem present_dec (s : State) (w : EventWord) : (s.present w).dec = s.dec := rfl
@[simp] theorem present_reading (s : State) (w : EventWord) : (s.present w).reading = s.reading := rfl
@[simp] theorem present_errors (s : State) (w : EventWord) : (s.present w).errors = s.errors := rfl
@[simp] theorem present_recovery (s : State) (w : EventWord) : (s.present w).recovery = s.recovery := rfl
@[simp] theorem present_facade (s : State) (w : EventWord) : (s.present w).facade = s.facade := rfl
@[simp] theorem present_wallNow (s : State) (w : EventWord) : (s.present w).wallNow = s.wallNow := rfl
@[simp] theorem present_pending (s : State) (w : EventWord) : (s.present w).pending = { rst := false, evValid := true, evWord := w, wallNow := s.wallNow } :: s.pending := rfl
@[simp] theorem present_response (s : State) (w : EventWord) : (s.present w).response = s.response := rfl
@[simp] theorem present_actions (s : State) (w : EventWord) : (s.present w).actions = s.actions := rfl

/-! ## `beginStep` -/

@[simp] theorem beginStep_cfg (s : State) : s.beginStep.cfg = s.cfg := rfl
@[simp] theorem beginStep_dec (s : State) : s.beginStep.dec = s.dec := rfl
@[simp] theorem beginStep_reading (s : State) : s.beginStep.reading = s.reading := rfl
@[simp] theorem beginStep_errors (s : State) : s.beginStep.errors = s.errors := rfl
@[simp] theorem beginStep_recovery (s : State) : s.beginStep.recovery = s.recovery := rfl
@[simp] theorem beginStep_facade (s : State) : s.beginStep.facade = s.facade := rfl
@[simp] theorem beginStep_wallNow (s : State) : s.beginStep.wallNow = s.wallNow := rfl
@[simp] theorem beginStep_pending (s : State) : s.beginStep.pending = s.pending := rfl
@[simp] theorem beginStep_response (s : State) : s.beginStep.response = some ⟨.ok, 0#128⟩ := rfl
@[simp] theorem beginStep_actions (s : State) : s.beginStep.actions = [] := rfl

/-! ## `respond` -/

@[simp] theorem respond_cfg (s : State) (st : Status) (d : Data) : (s.respond st d).cfg = s.cfg := rfl
@[simp] theorem respond_dec (s : State) (st : Status) (d : Data) : (s.respond st d).dec = s.dec := rfl
@[simp] theorem respond_reading (s : State) (st : Status) (d : Data) : (s.respond st d).reading = s.reading := rfl
@[simp] theorem respond_errors (s : State) (st : Status) (d : Data) : (s.respond st d).errors = s.errors := rfl
@[simp] theorem respond_recovery (s : State) (st : Status) (d : Data) : (s.respond st d).recovery = s.recovery := rfl
@[simp] theorem respond_facade (s : State) (st : Status) (d : Data) : (s.respond st d).facade = s.facade := rfl
@[simp] theorem respond_wallNow (s : State) (st : Status) (d : Data) : (s.respond st d).wallNow = s.wallNow := rfl
@[simp] theorem respond_pending (s : State) (st : Status) (d : Data) : (s.respond st d).pending = s.pending := rfl
@[simp] theorem respond_response (s : State) (st : Status) (d : Data) : (s.respond st d).response = some ⟨st, d⟩ := rfl
@[simp] theorem respond_actions (s : State) (st : Status) (d : Data) : (s.respond st d).actions = s.actions := rfl

/-! ## `turnAway` -/

@[simp] theorem turnAway_cfg (s : State) (st : Status) : (s.turnAway st).cfg = s.cfg := rfl
@[simp] theorem turnAway_dec (s : State) (st : Status) : (s.turnAway st).dec = s.dec := rfl
@[simp] theorem turnAway_reading (s : State) (st : Status) : (s.turnAway st).reading = s.reading := rfl
@[simp] theorem turnAway_errors (s : State) (st : Status) : (s.turnAway st).errors = s.errors := rfl
@[simp] theorem turnAway_recovery (s : State) (st : Status) : (s.turnAway st).recovery = s.recovery := rfl
@[simp] theorem turnAway_facade (s : State) (st : Status) : (s.turnAway st).facade = s.facade := rfl
@[simp] theorem turnAway_wallNow (s : State) (st : Status) : (s.turnAway st).wallNow = s.wallNow := rfl
@[simp] theorem turnAway_pending (s : State) (st : Status) : (s.turnAway st).pending = s.pending := rfl
@[simp] theorem turnAway_response (s : State) (st : Status) : (s.turnAway st).response = some ⟨st, 0#128⟩ := rfl
@[simp] theorem turnAway_actions (s : State) (st : Status) : (s.turnAway st).actions = [] := rfl

/-! ## `command` -/

@[simp] theorem command_cfg (s : State) (a : Action) : (s.command a).cfg = s.cfg := rfl
@[simp] theorem command_dec (s : State) (a : Action) : (s.command a).dec = s.dec := rfl
@[simp] theorem command_reading (s : State) (a : Action) : (s.command a).reading = s.reading := rfl
@[simp] theorem command_errors (s : State) (a : Action) : (s.command a).errors = s.errors := rfl
@[simp] theorem command_recovery (s : State) (a : Action) : (s.command a).recovery = s.recovery := rfl
@[simp] theorem command_facade (s : State) (a : Action) : (s.command a).facade = s.facade.mirror a := rfl
@[simp] theorem command_wallNow (s : State) (a : Action) : (s.command a).wallNow = s.wallNow := rfl
@[simp] theorem command_pending (s : State) (a : Action) : (s.command a).pending = s.pending := rfl
@[simp] theorem command_response (s : State) (a : Action) : (s.command a).response = s.response := rfl
@[simp] theorem command_actions (s : State) (a : Action) : (s.command a).actions = s.actions ++ [a] := rfl

/-! ## `clearMissing` -/

@[simp] theorem clearMissing_cfg (s : State) : s.clearMissing.cfg = s.cfg := rfl
@[simp] theorem clearMissing_dec (s : State) : s.clearMissing.dec = s.dec := rfl
@[simp] theorem clearMissing_reading (s : State) : s.clearMissing.reading = s.reading := rfl
@[simp] theorem clearMissing_errors (s : State) : s.clearMissing.errors = s.errors := rfl
@[simp] theorem clearMissing_recovery (s : State) : s.clearMissing.recovery = { s.recovery with consecutiveMissing := 0#8 } := rfl
@[simp] theorem clearMissing_facade (s : State) : s.clearMissing.facade = s.facade := rfl
@[simp] theorem clearMissing_wallNow (s : State) : s.clearMissing.wallNow = s.wallNow := rfl
@[simp] theorem clearMissing_pending (s : State) : s.clearMissing.pending = s.pending := rfl
@[simp] theorem clearMissing_response (s : State) : s.clearMissing.response = s.response := rfl
@[simp] theorem clearMissing_actions (s : State) : s.clearMissing.actions = s.actions := rfl

/-! ## `frameReset` -/

@[simp] theorem frameReset_cfg (s : State) : s.frameReset.cfg = s.cfg := rfl
@[simp] theorem frameReset_dec (s : State) : s.frameReset.dec = { DecodeState.afterReset s.cfg with lastRisingTick := s.dec.lastRisingTick } := rfl
@[simp] theorem frameReset_reading (s : State) : s.frameReset.reading = s.reading := rfl
@[simp] theorem frameReset_errors (s : State) : s.frameReset.errors = s.errors := rfl
@[simp] theorem frameReset_recovery (s : State) : s.frameReset.recovery = s.recovery := rfl
@[simp] theorem frameReset_facade (s : State) : s.frameReset.facade = s.facade := rfl
@[simp] theorem frameReset_wallNow (s : State) : s.frameReset.wallNow = s.wallNow := rfl
@[simp] theorem frameReset_pending (s : State) : s.frameReset.pending = s.pending := rfl
@[simp] theorem frameReset_response (s : State) : s.frameReset.response = s.response := rfl
@[simp] theorem frameReset_actions (s : State) : s.frameReset.actions = s.actions := rfl

/-! ## `advance` -/

@[simp] theorem advance_cfg (s : State) : s.advance.cfg = s.cfg := rfl
@[simp] theorem advance_dec (s : State) : s.advance.dec = { s.dec with bitIndex := advanceIndex s.dec.bitIndex } := rfl
@[simp] theorem advance_reading (s : State) : s.advance.reading = s.reading := rfl
@[simp] theorem advance_errors (s : State) : s.advance.errors = s.errors := rfl
@[simp] theorem advance_recovery (s : State) : s.advance.recovery = s.recovery := rfl
@[simp] theorem advance_facade (s : State) : s.advance.facade = s.facade := rfl
@[simp] theorem advance_wallNow (s : State) : s.advance.wallNow = s.wallNow := rfl
@[simp] theorem advance_pending (s : State) : s.advance.pending = s.pending := rfl
@[simp] theorem advance_response (s : State) : s.advance.response = s.response := rfl
@[simp] theorem advance_actions (s : State) : s.advance.actions = s.actions := rfl

/-! ## `restorePower` -/

@[simp] theorem restorePower_cfg (s : State) : s.restorePower.cfg = s.cfg := rfl
@[simp] theorem restorePower_dec (s : State) : s.restorePower.dec = s.dec := rfl
@[simp] theorem restorePower_reading (s : State) : s.restorePower.reading = s.reading := rfl
@[simp] theorem restorePower_errors (s : State) : s.restorePower.errors = s.errors := rfl
@[simp] theorem restorePower_recovery (s : State) : s.restorePower.recovery = { s.recovery with recPhase := .onSettle } := rfl
@[simp] theorem restorePower_facade (s : State) : s.restorePower.facade = { s.facade with powerOut := true } := rfl
@[simp] theorem restorePower_wallNow (s : State) : s.restorePower.wallNow = s.wallNow := rfl
@[simp] theorem restorePower_pending (s : State) : s.restorePower.pending = s.pending := rfl
@[simp] theorem restorePower_response (s : State) : s.restorePower.response = s.response := rfl
@[simp] theorem restorePower_actions (s : State) : s.restorePower.actions = s.actions ++ [.power true] ++ [.timerStart .settle s.cfg.settleDelay] := rfl

/-! ## `finishRecovery` -/

@[simp] theorem finishRecovery_cfg (s : State) : s.finishRecovery.cfg = s.cfg := rfl
@[simp] theorem finishRecovery_dec (s : State) : s.finishRecovery.dec = s.dec := rfl
@[simp] theorem finishRecovery_reading (s : State) : s.finishRecovery.reading = s.reading := rfl
@[simp] theorem finishRecovery_errors (s : State) : s.finishRecovery.errors = { s.errors with sensorReset := satInc32 s.errors.sensorReset } := rfl
@[simp] theorem finishRecovery_recovery (s : State) : s.finishRecovery.recovery = { s.recovery with powered := true, recPhase := .idle } := rfl
@[simp] theorem finishRecovery_facade (s : State) : s.finishRecovery.facade = s.facade := rfl
@[simp] theorem finishRecovery_wallNow (s : State) : s.finishRecovery.wallNow = s.wallNow := rfl
@[simp] theorem finishRecovery_pending (s : State) : s.finishRecovery.pending = s.pending := rfl
@[simp] theorem finishRecovery_response (s : State) : s.finishRecovery.response = s.response := rfl
@[simp] theorem finishRecovery_actions (s : State) : s.finishRecovery.actions = s.actions := rfl

/-! ## `read` -/

@[simp] theorem read_cfg (s : State) (sel : ReadSel) : (s.read sel).cfg = s.cfg := rfl
@[simp] theorem read_dec (s : State) (sel : ReadSel) : (s.read sel).dec = s.dec := rfl
@[simp] theorem read_reading (s : State) (sel : ReadSel) : (s.read sel).reading = s.reading := rfl
@[simp] theorem read_errors (s : State) (sel : ReadSel) : (s.read sel).errors = s.errors := rfl
@[simp] theorem read_recovery (s : State) (sel : ReadSel) : (s.read sel).recovery = s.recovery := rfl
@[simp] theorem read_facade (s : State) (sel : ReadSel) : (s.read sel).facade = s.facade := rfl
@[simp] theorem read_wallNow (s : State) (sel : ReadSel) : (s.read sel).wallNow = s.wallNow := rfl
@[simp] theorem read_pending (s : State) (sel : ReadSel) : (s.read sel).pending = s.pending := rfl
@[simp] theorem read_response (s : State) (sel : ReadSel) : (s.read sel).response = some (s.rdPort sel) := rfl
@[simp] theorem read_actions (s : State) (sel : ReadSel) : (s.read sel).actions = [] := rfl

/-! ## `mirror` -/

@[simp] theorem mirror_wdDisarm (f : FacadeState) : f.mirror .wdDisarm = { f with wdArmed := false } := rfl
@[simp] theorem mirror_wdArm (f : FacadeState) (n : BitVec 32) : f.mirror (.wdArm n) = { f with wdArmed := true } := rfl
@[simp] theorem mirror_dataLow (f : FacadeState) : f.mirror .dataLow = { f with dataDriveLow := true } := rfl
@[simp] theorem mirror_dataInput (f : FacadeState) : f.mirror .dataInput = { f with dataDriveLow := false } := rfl
@[simp] theorem mirror_power (f : FacadeState) (b : Bool) : f.mirror (.power b) = { f with powerOut := b } := rfl
@[simp] theorem mirror_indicator (f : FacadeState) (b : Bool) : f.mirror (.indicator b) = { f with indicatorOut := b } := rfl
@[simp] theorem mirror_timerStart (f : FacadeState) (i : TimerId) (d : BitVec 31) : f.mirror (.timerStart i d) = f := rfl
@[simp] theorem mirror_unsubscribe (f : FacadeState) : f.mirror .unsubscribe = { f with active := false } := rfl

/-! ## `hardwareReset` -/

/-- Hardware reset keeps the configuration and what the environment has yet to present. -/
@[simp] theorem hardwareReset_eq (s : State) (rest : List PortSample) :
    s.hardwareReset rest = { State.resetWith s.cfg with pending := rest } := rfl

/-- Hardware reset does not look at the fields of the record. -/
theorem hardwareReset_cfg_only (s s' : State) (rest : List PortSample) (h : s.cfg = s'.cfg) :
    s.hardwareReset rest = s'.hardwareReset rest := by
  simp [h]

end Sys2Proof.Machine
end

