-- ==== Sys2Proof/Laws/Ops.lean ====
section
/-! SUPPORT. What each conditional operation can do, said once: every lemma here is cited instead of unfolding the operation. -/

namespace Sys2Proof.Machine

/-! ## Numbers -/

/-- The largest tick distance is below the modulus. -/
theorem ticksBetween_lt (a b : Tick) : ticksBetween a b < 2 ^ 32 := by
  unfold ticksBetween
  omega

/-- The wrapping subtraction as a number. -/
theorem elapsed_toNat (a b : Tick) : (elapsed a b).toNat = ticksBetween a b := by
  have ha := a.isLt
  have hb := b.isLt
  simp only [elapsed, ticksBetween, BitVec.toNat_sub]
  omega

/-- The decoded bit is 1 from T_ONE on. -/
theorem classify_bit (w : Tick) : (classify w).bit = decide (50 ≤ w.toNat) := by
  unfold classify tOne tLong
  split
  · simp; omega
  · split <;> simp <;> omega

/-- The long mark is set from T_LONG on. -/
theorem classify_long (w : Tick) : (classify w).long = decide (200 ≤ w.toNat) := by
  unfold classify tOne tLong
  split
  · simp; omega
  · split <;> simp <;> omega

/-- The decoded bit of the pulse that a falling edge ends. -/
theorem classify_pulse_bit (s : State) (tick : Tick) :
    (classify (elapsed s.dec.lastRisingTick tick)).bit = decide (50 ≤ pulseWidth s tick) := by
  rw [classify_bit, decide_eq_decide, elapsed_toNat]
  rfl

/-- The long mark of the pulse that a falling edge ends. -/
theorem classify_pulse_long (s : State) (tick : Tick) :
    (classify (elapsed s.dec.lastRisingTick tick)).long = decide (200 ≤ pulseWidth s tick) := by
  rw [classify_long, decide_eq_decide, elapsed_toNat]
  rfl

/-- One shift doubles the register and adds the bit, modulo 256. -/
theorem shiftBit_eq_appendBit (r : Byte) (b : Bool) : shiftBit r b = appendBit r b := by
  revert r b
  decide

/-- Without a set top bit a shift discards nothing. -/
theorem appendBit_toNat (r : Byte) (b : Bool) (h : r.toNat < 128) : (appendBit r b).toNat = 2 * r.toNat + b.toNat := by
  have := b.toNat_lt
  simp only [appendBit, BitVec.toNat_ofNat]
  omega

/-- The saturating increment as a number. -/
theorem satInc32_eq_countUp (c : BitVec 32) : satInc32 c = countUp c := by
  have hc := c.isLt
  apply BitVec.eq_of_toNat_eq
  unfold satInc32 countUp
  split
  · simp only [BitVec.toNat_add, BitVec.toNat_ofNat]; omega
  · simp only [BitVec.toNat_ofNat]; omega

/-- The range of a signed byte. -/
theorem toInt8_range (i : BitVec 8) : -128 ≤ i.toInt ∧ i.toInt ≤ 127 := by
  have h := BitVec.le_toInt i
  have h' := BitVec.toInt_lt (x := i)
  simp at h h'
  omega

/-- The index advance as a number. -/
theorem advanceIndex_toInt (i : BitVec 8) : (advanceIndex i).toInt = min (i.toInt + 1) 127 := by
  revert i
  decide

/-- The index advance as a word. -/
theorem advanceIndex_eq (i : BitVec 8) : advanceIndex i = BitVec.ofInt 8 (min (i.toInt + 1) 127) := by
  revert i
  decide

/-! ## Raising conditions -/

/-- `request_recovery()`: counted without a line, dropped during a recovery, else the entry. -/
theorem requestRecovery_cases (s : State) :
    (s.cfg.hasPowerLine = false ∧
      s.requestRecovery = { s with errors := { s.errors with sensorReset := satInc32 s.errors.sensorReset } }) ∨
    (s.cfg.hasPowerLine = true ∧ s.recovery.recPhase ≠ .idle ∧ s.requestRecovery = s) ∨
    (s.cfg.hasPowerLine = true ∧ s.recovery.recPhase = .idle ∧
      s.requestRecovery = { s with
        recovery := { s.recovery with recPhase := .offSettle, powered := false }
        facade := { s.facade with powerOut := false }
        actions := s.actions ++ [.power false] ++ [.timerStart .settle s.cfg.settleDelay] }) := by
  unfold State.requestRecovery
  cases hp : s.cfg.hasPowerLine
  · exact .inl ⟨rfl, by simp⟩
  · by_cases hi : s.recovery.recPhase = .idle
    · exact .inr (.inr ⟨rfl, hi, by simp [hi, State.command]⟩)
    · exact .inr (.inl ⟨rfl, hi, by simp [hi]⟩)

/-- MissingMessage: a longer streak within the threshold, or the streak cleared and a recovery requested. -/
theorem missedMessage_cases (s : State) :
    (s.recovery.consecutiveMissing.toNat + 1 ≤ s.cfg.maxNoResponse.val ∧
      s.missedMessage = { s with
        errors := { s.errors with missingMessage := satInc32 s.errors.missingMessage }
        recovery := { s.recovery with
          consecutiveMissing := BitVec.ofNat 8 (s.recovery.consecutiveMissing.toNat + 1) } }) ∨
    (s.cfg.maxNoResponse.val < s.recovery.consecutiveMissing.toNat + 1 ∧
      s.missedMessage = State.requestRecovery { s with
        errors := { s.errors with missingMessage := satInc32 s.errors.missingMessage }
        recovery := { s.recovery with consecutiveMissing := 0#8 } }) := by
  unfold State.missedMessage
  by_cases h : s.cfg.maxNoResponse.val < s.recovery.consecutiveMissing.toNat + 1
  · exact .inr ⟨h, by simp [h, State.sensorUnresponsive, State.clearMissing]⟩
  · exact .inl ⟨by omega, by simp [h]⟩

/-- A command to the indicator line acts exactly where the channel has one. -/
theorem commandIndicator_eq (s : State) (b : Bool) :
    s.commandIndicator b = { s with
      facade := if s.cfg.hasIndicatorLine then { s.facade with indicatorOut := b } else s.facade
      actions := if s.cfg.hasIndicatorLine then s.actions ++ [.indicator b] else s.actions } := by
  unfold State.commandIndicator
  cases s.cfg.hasIndicatorLine <;> rfl

/-! ## Frames -/

/-- Which register a payload bit goes into. -/
theorem shiftIn_cases (d : DecodeState) (i : Nat) (b : Bool) (h : i ≤ 39) :
    (i < 8 ∧ shiftIn d i b = { d with humHi := appendBit d.humHi b }) ∨
    (8 ≤ i ∧ i < 16 ∧ shiftIn d i b = { d with humLo := appendBit d.humLo b }) ∨
    (16 ≤ i ∧ i < 24 ∧ shiftIn d i b = { d with tmpHi := appendBit d.tmpHi b }) ∨
    (24 ≤ i ∧ i < 32 ∧ shiftIn d i b = { d with tmpLo := appendBit d.tmpLo b }) ∨
    (32 ≤ i ∧ shiftIn d i b = { d with cksAcc := appendBit d.cksAcc b }) := by
  have hk : i / 8 = 0 ∨ i / 8 = 1 ∨ i / 8 = 2 ∨ i / 8 = 3 ∨ i / 8 = 4 := by omega
  unfold shiftIn
  rcases hk with hk | hk | hk | hk | hk <;> rw [hk] <;> simp only [shiftBit_eq_appendBit]
  · exact .inl ⟨by omega, trivial⟩
  · exact .inr (.inl ⟨by omega, by omega, trivial⟩)
  · exact .inr (.inr (.inl ⟨by omega, by omega, trivial⟩))
  · exact .inr (.inr (.inr (.inl ⟨by omega, by omega, trivial⟩)))
  · exact .inr (.inr (.inr (.inr ⟨by omega, trivial⟩)))

/-- A shift changes neither the index nor the reference tick nor the poison mark. -/
theorem shiftIn_keeps (d : DecodeState) (i : Nat) (b : Bool) :
    (shiftIn d i b).bitIndex = d.bitIndex ∧ (shiftIn d i b).lastRisingTick = d.lastRisingTick ∧
    (shiftIn d i b).poisoned = d.poisoned := by
  unfold shiftIn
  split <;> exact ⟨rfl, rfl, rfl⟩

/-- `complete_frame()`: the watchdog disarmed and the streak cleared, then the Reading published or a mismatch counted. -/
theorem completeFrame_cases (s : State) :
    (frameValid s.dec = true ∧
      s.completeFrame = { s with
        reading := { readingValid := true, humidityTenths := humRaw s.dec.humHi s.dec.humLo
                     temperatureTenths := tmpRaw s.dec.tmpHi s.dec.tmpLo, validSince := s.wallNow }
        recovery := { s.recovery with consecutiveMissing := 0#8 }
        facade := if s.cfg.hasIndicatorLine then { s.facade with wdArmed := false, indicatorOut := false }
          else { s.facade with wdArmed := false }
        actions := if s.cfg.hasIndicatorLine then s.actions ++ [.wdDisarm] ++ [.indicator false]
          else s.actions ++ [.wdDisarm] }) ∨
    (frameValid s.dec = false ∧
      s.completeFrame = { s with
        errors := { s.errors with badChecksum := satInc32 s.errors.badChecksum }
        recovery := { s.recovery with consecutiveMissing := 0#8 }
        facade := { s.facade with wdArmed := false }
        actions := s.actions ++ [.wdDisarm] }) := by
  have hd : (s.command .wdDisarm).clearMissing.dec = s.dec := rfl
  unfold State.completeFrame State.validateAndPublish
  rw [hd]
  cases hv : frameValid s.dec
  · exact .inr ⟨rfl, rfl⟩
  · refine .inl ⟨rfl, ?_⟩
    unfold State.publish
    rw [commandIndicator_eq]
    cases h : s.cfg.hasIndicatorLine <;> simp [State.command, State.clearMissing, h]

/-- A payload edge up to the advance, before the last bit. -/
theorem payloadEdge_before_last (s : State) (i : Nat) (w : Tick) (h : i ≠ 39) :
    s.payloadEdge i w = { s with
      dec := shiftIn { s.dec with poisoned := s.dec.poisoned || (classify w).long } i (classify w).bit } := by
  unfold State.payloadEdge
  rw [if_neg h]
  cases (classify w).long
  · simp
  · simp [State.raise]

/-- A payload edge up to the advance, on the last bit. -/
theorem payloadEdge_last (s : State) (w : Tick) :
    s.payloadEdge 39 w = State.completeFrame { s with
      dec := { s.dec with
        poisoned := s.dec.poisoned || (classify w).long
        cksAcc := appendBit s.dec.cksAcc (classify w).bit } } := by
  unfold State.payloadEdge
  rw [if_pos rfl]
  have h39 : (39 : Nat) / 8 = 4 := rfl
  cases (classify w).long <;> simp [State.raise, shiftIn, shiftBit_eq_appendBit]

/-- A header edge up to the advance. -/
theorem headerEdge_eq (s : State) (w : Tick) :
    s.headerEdge w = { s with
      dec := { s.dec with poisoned := s.dec.poisoned || (s.cfg.poisonOnHeader && (classify w).long) } } := by
  unfold State.headerEdge
  cases h : (s.cfg.poisonOnHeader && (classify w).long) <;> simp [State.raise]

end Sys2Proof.Machine
end

