-- ==== Sys2Proof/Laws/Exec.lean ====
section
/-! SUPPORT. What each event can do, in the terms of the shared operations: one lemma per event and case, so that no proof
about a step unfolds a meaning again. -/

namespace Sys2Proof.Machine

/-- The state after a complete no-op with a status. -/
theorem turnAway_eq (s : State) (st : Status) : s.turnAway st = answeredOnly s st 0#128 := rfl

/-- A state is its fields: a no-op with the response and the actions it already has. -/
theorem answeredOnly_fields (s : State) (st : Status) (d : Data) :
    (answeredOnly s st d).dec = s.dec ∧ (answeredOnly s st d).reading = s.reading ∧
    (answeredOnly s st d).errors = s.errors ∧ (answeredOnly s st d).recovery = s.recovery ∧
    (answeredOnly s st d).facade = s.facade ∧ (answeredOnly s st d).cfg = s.cfg ∧
    (answeredOnly s st d).response = some ⟨st, d⟩ ∧ (answeredOnly s st d).actions = [] :=
  ⟨rfl, rfl, rfl, rfl, rfl, rfl, rfl, rfl⟩

/-! ## RISE -/

theorem exec_rise_inactive (s : State) (tick : Tick) (h : s.facade.active = false) :
    exec (.rise tick) s = .next (answeredOnly s .ignored 0#128) := by
  simp [exec, execRise, h, turnAway_eq]

/-- What an accepted RISE leaves: the tick recorded, a frame started after a long gap. -/
theorem exec_rise_active (s : State) (tick : Tick) (h : s.facade.active = true) :
    exec (.rise tick) s = .next { s with
      dec := if 250000 < ticksBetween s.dec.lastRisingTick tick then
          { DecodeState.afterReset s.cfg with lastRisingTick := tick }
        else { s.dec with lastRisingTick := tick }
      response := some ⟨.ok, 0#128⟩, actions := [] } := by
  simp only [exec, execRise, h, elapsed_toNat, tGap]
  by_cases hg : 250000 < ticksBetween s.dec.lastRisingTick tick <;>
    simp [hg, State.frameReset, State.beginStep, DecodeState.afterReset]

/-! ## FALL -/

theorem exec_fall_inactive (s : State) (tick : Tick) (h : s.facade.active = false) :
    exec (.fall tick) s = .next (answeredOnly s .ignored 0#128) := by
  simp [exec, execFall, h, turnAway_eq]

/-- An accepted FALL on a header bit. -/
theorem exec_fall_header (s : State) (tick : Tick) (h : s.facade.active = true) (hi : s.dec.bitIndex.toInt < 0) :
    exec (.fall tick) s = .next { s with
      dec := { s.dec with
        bitIndex := advanceIndex s.dec.bitIndex
        poisoned := s.dec.poisoned || (s.cfg.poisonOnHeader && decide (200 ≤ pulseWidth s tick)) }
      response := some ⟨.ok, 0#128⟩, actions := [] } := by
  simp [exec, execFall, h, hi, headerEdge_eq, classify_pulse_long, State.advance, State.beginStep]

/-- An accepted FALL while idle. -/
theorem exec_fall_idle (s : State) (tick : Tick) (h : s.facade.active = true) (hi : 40 ≤ s.dec.bitIndex.toInt) :
    exec (.fall tick) s = .next { s with
      dec := { s.dec with bitIndex := advanceIndex s.dec.bitIndex }
      response := some ⟨.ok, 0#128⟩, actions := [] } := by
  have h0 : ¬ s.dec.bitIndex.toInt < 0 := by omega
  have h1 : ¬ s.dec.bitIndex.toInt < frameBits := by unfold frameBits; omega
  simp [exec, execFall, h, h0, h1, State.advance, State.beginStep]

/-- An accepted FALL on a payload bit before the last. -/
theorem exec_fall_payload (s : State) (tick : Tick) (h : s.facade.active = true) (h0 : 0 ≤ s.dec.bitIndex.toInt)
    (h1 : s.dec.bitIndex.toInt < 39) :
    exec (.fall tick) s = .next { s with
      dec := { shiftIn { s.dec with poisoned := s.dec.poisoned || decide (200 ≤ pulseWidth s tick) }
          s.dec.bitIndex.toInt.toNat (decide (50 ≤ pulseWidth s tick)) with
        bitIndex := advanceIndex s.dec.bitIndex }
      response := some ⟨.ok, 0#128⟩, actions := [] } := by
  have h2 : ¬ s.dec.bitIndex.toInt < 0 := by omega
  have h3 : s.dec.bitIndex.toInt < frameBits := by unfold frameBits; omega
  have h4 : s.dec.bitIndex.toInt.toNat ≠ 39 := by omega
  simp only [exec, execFall, h, h2, h3, if_true, if_false, Bool.not_true,
    payloadEdge_before_last _ _ _ h4, classify_pulse_long, classify_pulse_bit, State.advance,
    State.beginStep, Bool.false_eq_true, (shiftIn_keeps _ _ _).1]

/-- An accepted FALL on the last payload bit is the completion of the frame, then the advance. -/
theorem exec_fall_last (s : State) (tick : Tick) (h : s.facade.active = true) (hi : s.dec.bitIndex.toInt = 39) :
    exec (.fall tick) s = .next (State.advance (State.completeFrame { s with
      dec := { s.dec with
        poisoned := s.dec.poisoned || decide (200 ≤ pulseWidth s tick)
        cksAcc := appendBit s.dec.cksAcc (decide (50 ≤ pulseWidth s tick)) }
      response := some ⟨.ok, 0#128⟩, actions := [] })) := by
  have h2 : ¬ (39 : Int) < 0 := by omega
  have h3 : (39 : Int) < frameBits := by unfold frameBits; omega
  have h4 : (39 : Int).toNat = 39 := rfl
  simp only [exec, execFall, h, hi, h2, h3, h4, if_true, if_false, Bool.not_true,
    payloadEdge_last, classify_pulse_long, classify_pulse_bit, State.beginStep, Bool.false_eq_true]

/-! ## TIMEOUT -/

theorem exec_timeout_masked (s : State) (a : BitVec 32) (h : s.facade.active = false ∨ s.facade.wdArmed = false) :
    exec (.timeout a) s = .next (answeredOnly s .ignored 0#128) := by
  rcases h with h | h <;> simp [exec, execTimeout, h, turnAway_eq]

/-- An accepted TIMEOUT before bit 8 raises MissingMessage. -/
theorem exec_timeout_missing (s : State) (a : BitVec 32) (h : s.facade.active = true) (hw : s.facade.wdArmed = true)
    (hi : s.dec.bitIndex.toInt < 8) :
    exec (.timeout a) s = .next ((State.missedMessage { s with
      facade := { s.facade with wdArmed := false }
      response := some ⟨.ok, 0#128⟩, actions := [.wdDisarm] }).respond .ok 0#128) := by
  have h8 : s.dec.bitIndex.toInt < missingLimit := hi
  simp [exec, execTimeout, h, hw, h8, State.raise, State.command, State.beginStep]

/-- An accepted TIMEOUT from bit 8 on: a short message before bit 39, complete from there on. -/
theorem exec_timeout_later (s : State) (a : BitVec 32) (h : s.facade.active = true) (hw : s.facade.wdArmed = true)
    (hi : 8 ≤ s.dec.bitIndex.toInt) :
    exec (.timeout a) s = .next { s with
      errors := if s.dec.bitIndex.toInt < 39 then
          { s.errors with shortMessage := satInc32 s.errors.shortMessage } else s.errors
      recovery := { s.recovery with consecutiveMissing := 0#8 }
      facade := { s.facade with wdArmed := false }
      response := some ⟨.ok, if s.dec.bitIndex.toInt < 39 then 1#128 else 2#128⟩
      actions := [.wdDisarm] } := by
  have h8 : ¬ s.dec.bitIndex.toInt < missingLimit := by unfold missingLimit; omega
  by_cases h39 : s.dec.bitIndex.toInt < 39
  · have h39' : s.dec.bitIndex.toInt < shortLimit := h39
    simp [exec, execTimeout, h, hw, h8, h39, h39', State.raise, State.command, State.beginStep, State.clearMissing,
      State.respond]
  · have h39' : ¬ s.dec.bitIndex.toInt < shortLimit := h39
    simp [exec, execTimeout, h, hw, h8, h39, h39', State.command, State.beginStep, State.clearMissing, State.respond]

/-! ## SETTLE_DONE -/

theorem exec_settleDone_idle (s : State) (a : BitVec 32) (h : s.recovery.recPhase = .idle) :
    exec (.settleDone a) s = .next (answeredOnly s .ignored 0#128) := by
  simp [exec, execSettleDone, h, turnAway_eq]

theorem exec_settleDone_offSettle (s : State) (a : BitVec 32) (h : s.recovery.recPhase = .offSettle) :
    exec (.settleDone a) s = .next s.beginStep.restorePower := by
  simp [exec, execSettleDone, h]

theorem exec_settleDone_onSettle (s : State) (a : BitVec 32) (h : s.recovery.recPhase = .onSettle) :
    exec (.settleDone a) s = .next s.beginStep.finishRecovery := by
  simp [exec, execSettleDone, h]

/-! ## TRIG_REQ, TRIG_DONE, SHUTDOWN -/

/-- TRIG_REQ: one of the three rejections, or the start of the window. -/
theorem exec_trigReq_cases (s : State) (a : BitVec 32) :
    (s.facade.active = false ∧ exec (.trigReq a) s = .next (answeredOnly s .rejectedInactive 0#128)) ∨
    (s.facade.active = true ∧ s.recovery.powered = false ∧
      exec (.trigReq a) s = .next (answeredOnly s .rejectedUnpowered 0#128)) ∨
    (s.facade.active = true ∧ s.recovery.powered = true ∧ s.facade.trigPhase = .asserting ∧
      exec (.trigReq a) s = .next (answeredOnly s .rejectedBusy 0#128)) ∨
    (s.facade.active = true ∧ s.recovery.powered = true ∧ s.facade.trigPhase = .idle ∧
      exec (.trigReq a) s = .next { s with
        facade := { s.facade with
          trigPhase := .asserting, dataDriveLow := true
          indicatorOut := if s.cfg.hasIndicatorLine then true else s.facade.indicatorOut }
        response := some ⟨.ok, 0#128⟩
        actions := (if s.cfg.hasIndicatorLine then [.indicator true] else []) ++
          [.dataLow, .timerStart .trig s.cfg.triggerLowMs] }) := by
  unfold exec execTrigReq
  cases ha : s.facade.active
  · exact .inl ⟨rfl, by simp [turnAway_eq]⟩
  · cases hp : s.recovery.powered
    · exact .inr (.inl ⟨rfl, rfl, by simp [State.raise, State.respond, State.beginStep, answeredOnly]⟩)
    · cases ht : s.facade.trigPhase
      · refine .inr (.inr (.inr ⟨rfl, rfl, rfl, ?_⟩))
        cases hl : s.cfg.hasIndicatorLine <;>
          simp [commandIndicator_eq, State.command, State.beginStep, hl]
      · exact .inr (.inr (.inl ⟨rfl, rfl, rfl, by simp [turnAway_eq]⟩))

theorem exec_trigDone_idle (s : State) (a : BitVec 32) (h : s.facade.trigPhase = .idle) :
    exec (.trigDone a) s = .next (answeredOnly s .ignored 0#128) := by
  simp [exec, execTrigDone, h, turnAway_eq]

/-- TRIG_DONE at the end of a window. -/
theorem exec_trigDone_asserting (s : State) (a : BitVec 32) (h : s.facade.trigPhase = .asserting) :
    exec (.trigDone a) s = .next { s with
      facade := { s.facade with
        trigPhase := .idle, dataDriveLow := false
        wdArmed := if s.facade.active then true else s.facade.wdArmed }
      response := some ⟨.ok, 0#128⟩
      actions := .dataInput :: (if s.facade.active then [.wdArm s.cfg.wdWindowMs] else []) } := by
  unfold exec execTrigDone
  cases ha : s.facade.active <;> simp [h, ha, State.command, State.beginStep]

/-- SHUTDOWN disarms and unsubscribes where the channel is active, and else only answers. -/
theorem exec_shutdown_cases (s : State) (a : BitVec 32) :
    (s.facade.active = true ∧ exec (.shutdown a) s = .next { s with
      facade := { s.facade with wdArmed := false, active := false }
      response := some ⟨.ok, 0#128⟩, actions := [.wdDisarm, .unsubscribe] }) ∨
    (s.facade.active = false ∧ exec (.shutdown a) s = .next (answeredOnly s .ok 0#128)) := by
  unfold exec execShutdown
  cases ha : s.facade.active
  · exact .inr ⟨rfl, by simp [ha, State.beginStep, answeredOnly]⟩
  · exact .inl ⟨rfl, by simp [ha, State.command, State.beginStep]⟩

/-! ## Reads -/

/-- A read of a part of the Reading answers OK or NEVER_VALID. -/
theorem guardedRead_cases (r : Reading) (d : Data) :
    (r.readingValid = true ∧ guardedRead r d = ⟨.ok, d⟩) ∨
    (r.readingValid = false ∧ guardedRead r d = ⟨.neverValid, 0#128⟩) := by
  unfold guardedRead
  cases r.readingValid <;> simp

/-- A read step answers and changes nothing. -/
theorem read_eq (s : State) (sel : ReadSel) :
    s.read sel = answeredOnly s (s.rdPort sel).status (s.rdPort sel).data := rfl

/-- Which status a read has: NEVER_VALID exactly for a read of a Reading that never was valid. -/
theorem rdPort_status (s : State) (sel : ReadSel) :
    ((s.rdPort sel).status = .ok ∧ (readsReading sel.kind = true → s.reading.readingValid = true)) ∨
    ((s.rdPort sel).status = .neverValid ∧ readsReading sel.kind = true ∧ s.reading.readingValid = false ∧
      (s.rdPort sel).data = 0#128) := by
  cases sel <;> simp only [State.rdPort, ReadSel.kind, readsReading]
  · rcases guardedRead_cases s.reading (s.reading.humidityTenths.setWidth 128) with ⟨hv, h⟩ | ⟨hv, h⟩ <;> simp [h, hv]
  · rcases guardedRead_cases s.reading (s.reading.temperatureTenths.setWidth 128) with ⟨hv, h⟩ | ⟨hv, h⟩ <;> simp [h, hv]
  · rcases guardedRead_cases s.reading ((s.wallNow - s.reading.validSince).setWidth 128) with ⟨hv, h⟩ | ⟨hv, h⟩ <;>
      simp [h, hv]
  · exact .inl ⟨trivial, fun h => absurd h (by decide)⟩
  · exact .inl ⟨trivial, fun h => absurd h (by decide)⟩

end Sys2Proof.Machine
end

