-- ==== Sys2Proof/Laws/Inversion.lean ====
section
/-! SUPPORT. What a step can do, said once: `Did s i t` lists every way in which event `i` can take state `s` to `t`, with
its guard, and `did_of_exec` says that `exec` takes no other. A statement about every event is proved by cases on it. -/

namespace Sys2Proof.Machine

/-- The frame completed by a falling edge on the last payload bit, before it is validated: the bit shifted in, the poison
mark set by a long pulse, the watchdog disarmed, the streak cleared, the index advanced to 40. -/
def completedFrame (s : State) (tick : Tick) : State :=
  { s with
    dec := { s.dec with
      bitIndex := 40#8
      cksAcc := appendBit s.dec.cksAcc (decide (50 ≤ pulseWidth s tick))
      poisoned := s.dec.poisoned || decide (200 ≤ pulseWidth s tick) }
    recovery := { s.recovery with consecutiveMissing := 0#8 }
    facade := { s.facade with wdArmed := false }
    response := some ⟨.ok, 0#128⟩
    actions := [.wdDisarm] }

/-- The state after an accepted timeout before bit 8, before the recovery is considered: the miss counted. -/
def countedMiss (s : State) (streak : BitVec 8) : State :=
  { s with
    errors := { s.errors with missingMessage := satInc32 s.errors.missingMessage }
    recovery := { s.recovery with consecutiveMissing := streak }
    facade := { s.facade with wdArmed := false }
    response := some ⟨.ok, 0#128⟩
    actions := [.wdDisarm] }

/-- Every way in which an event can take a state to the next. -/
inductive Did (s : State) : Instr → State → Prop where
  | turnedAway (i : Instr) (st : Status) (hst : st ≠ .ok)
      (why : (st = .ignored ∧ masked s i = true) ∨
        (st = .rejectedInactive ∧ i.kind = .trigReq ∧ s.facade.active = false) ∨
        (st = .rejectedUnpowered ∧ i.kind = .trigReq ∧ s.facade.active = true ∧ s.recovery.powered = false) ∨
        (st = .rejectedBusy ∧ i.kind = .trigReq ∧ s.facade.active = true ∧ s.recovery.powered = true ∧
          s.facade.trigPhase = .asserting) ∨
        (st = .neverValid ∧ readsReading i.kind = true ∧ s.reading.readingValid = false) ∨
        (st = .illegalEvent ∧ i.kind.isReserved = true)) :
      Did s i (answeredOnly s st 0#128)
  | readOut (i : Instr) (d : Data) (hk : i.kind.isRead = true)
      (hv : readsReading i.kind = true → s.reading.readingValid = true) : Did s i (answeredOnly s .ok d)
  | shutAgain (a : BitVec 32) (ha : s.facade.active = false) : Did s (.shutdown a) (answeredOnly s .ok 0#128)
  | shut (a : BitVec 32) (ha : s.facade.active = true) :
      Did s (.shutdown a) { s with
        facade := { s.facade with wdArmed := false, active := false }
        response := some ⟨.ok, 0#128⟩, actions := [.wdDisarm, .unsubscribe] }
  | roseShort (tick : Tick) (ha : s.facade.active = true)
      (hg : ¬ 250000 < ticksBetween s.dec.lastRisingTick tick) :
      Did s (.rise tick) { s with
        dec := { s.dec with lastRisingTick := tick }
        response := some ⟨.ok, 0#128⟩, actions := [] }
  | roseLong (tick : Tick) (ha : s.facade.active = true)
      (hg : 250000 < ticksBetween s.dec.lastRisingTick tick) :
      Did s (.rise tick) { s with
        dec := { DecodeState.afterReset s.cfg with lastRisingTick := tick }
        response := some ⟨.ok, 0#128⟩, actions := [] }
  | fellHeader (tick : Tick) (ha : s.facade.active = true) (hi : s.dec.bitIndex.toInt < 0) :
      Did s (.fall tick) { s with
        dec := { s.dec with
          bitIndex := advanceIndex s.dec.bitIndex
          poisoned := s.dec.poisoned || (s.cfg.poisonOnHeader && decide (200 ≤ pulseWidth s tick)) }
        response := some ⟨.ok, 0#128⟩, actions := [] }
  | fellPayload (tick : Tick) (ha : s.facade.active = true) (h0 : 0 ≤ s.dec.bitIndex.toInt)
      (h1 : s.dec.bitIndex.toInt < 39) :
      Did s (.fall tick) { s with
        dec := { shiftIn { s.dec with poisoned := s.dec.poisoned || decide (200 ≤ pulseWidth s tick) }
            s.dec.bitIndex.toInt.toNat (decide (50 ≤ pulseWidth s tick)) with
          bitIndex := advanceIndex s.dec.bitIndex }
        response := some ⟨.ok, 0#128⟩, actions := [] }
  | fellIdle (tick : Tick) (ha : s.facade.active = true) (hi : 40 ≤ s.dec.bitIndex.toInt) :
      Did s (.fall tick) { s with
        dec := { s.dec with bitIndex := advanceIndex s.dec.bitIndex }
        response := some ⟨.ok, 0#128⟩, actions := [] }
  | published (tick : Tick) (ha : s.facade.active = true) (hi : s.dec.bitIndex.toInt = 39)
      (hv : frameValid (completedFrame s tick).dec = true) :
      Did s (.fall tick) { completedFrame s tick with
        reading := {
          readingValid := true
          humidityTenths := humRaw s.dec.humHi s.dec.humLo
          temperatureTenths := tmpRaw s.dec.tmpHi s.dec.tmpLo
          validSince := s.wallNow }
        facade := if s.cfg.hasIndicatorLine then { s.facade with wdArmed := false, indicatorOut := false }
          else { s.facade with wdArmed := false }
        actions := if s.cfg.hasIndicatorLine then [.wdDisarm, .indicator false] else [.wdDisarm] }
  | mismatched (tick : Tick) (ha : s.facade.active = true) (hi : s.dec.bitIndex.toInt = 39)
      (hv : frameValid (completedFrame s tick).dec = false) :
      Did s (.fall tick) { completedFrame s tick with
        errors := { s.errors with badChecksum := satInc32 s.errors.badChecksum } }
  | missed (a : BitVec 32) (ha : s.facade.active = true) (hw : s.facade.wdArmed = true)
      (hi : s.dec.bitIndex.toInt < 8)
      (hm : s.recovery.consecutiveMissing.toNat + 1 ≤ s.cfg.maxNoResponse.val) :
      Did s (.timeout a) (countedMiss s (BitVec.ofNat 8 (s.recovery.consecutiveMissing.toNat + 1)))
  | missedNoLine (a : BitVec 32) (ha : s.facade.active = true) (hw : s.facade.wdArmed = true)
      (hi : s.dec.bitIndex.toInt < 8)
      (hm : s.cfg.maxNoResponse.val < s.recovery.consecutiveMissing.toNat + 1)
      (hp : s.cfg.hasPowerLine = false) :
      Did s (.timeout a) { countedMiss s 0#8 with
        errors := { s.errors with
          missingMessage := satInc32 s.errors.missingMessage
          sensorReset := satInc32 s.errors.sensorReset } }
  | missedDropped (a : BitVec 32) (ha : s.facade.active = true) (hw : s.facade.wdArmed = true)
      (hi : s.dec.bitIndex.toInt < 8)
      (hm : s.cfg.maxNoResponse.val < s.recovery.consecutiveMissing.toNat + 1)
      (hp : s.cfg.hasPowerLine = true) (hr : s.recovery.recPhase ≠ .idle) :
      Did s (.timeout a) (countedMiss s 0#8)
  | recoveryStarted (a : BitVec 32) (ha : s.facade.active = true) (hw : s.facade.wdArmed = true)
      (hi : s.dec.bitIndex.toInt < 8)
      (hm : s.cfg.maxNoResponse.val < s.recovery.consecutiveMissing.toNat + 1)
      (hp : s.cfg.hasPowerLine = true) (hr : s.recovery.recPhase = .idle) :
      Did s (.timeout a) { countedMiss s 0#8 with
        recovery := { consecutiveMissing := 0#8, recPhase := .offSettle, powered := false }
        facade := { s.facade with wdArmed := false, powerOut := false }
        actions := [.wdDisarm, .power false, .timerStart .settle s.cfg.settleDelay] }
  | timedOutLater (a : BitVec 32) (ha : s.facade.active = true) (hw : s.facade.wdArmed = true)
      (hi : 8 ≤ s.dec.bitIndex.toInt) :
      Did s (.timeout a) { s with
        errors := if s.dec.bitIndex.toInt < 39 then
            { s.errors with shortMessage := satInc32 s.errors.shortMessage } else s.errors
        recovery := { s.recovery with consecutiveMissing := 0#8 }
        facade := { s.facade with wdArmed := false }
        response := some ⟨.ok, if s.dec.bitIndex.toInt < 39 then 1#128 else 2#128⟩
        actions := [.wdDisarm] }
  | powerRestored (a : BitVec 32) (hr : s.recovery.recPhase = .offSettle) :
      Did s (.settleDone a) { s with
        recovery := { s.recovery with recPhase := .onSettle }
        facade := { s.facade with powerOut := true }
        response := some ⟨.ok, 0#128⟩
        actions := [.power true, .timerStart .settle s.cfg.settleDelay] }
  | recoveryFinished (a : BitVec 32) (hr : s.recovery.recPhase = .onSettle) :
      Did s (.settleDone a) { s with
        recovery := { s.recovery with recPhase := .idle, powered := true }
        errors := { s.errors with sensorReset := satInc32 s.errors.sensorReset }
        response := some ⟨.ok, 0#128⟩, actions := [] }
  | triggered (a : BitVec 32) (ha : s.facade.active = true) (hp : s.recovery.powered = true)
      (ht : s.facade.trigPhase = .idle) :
      Did s (.trigReq a) { s with
        facade := { s.facade with
          trigPhase := .asserting, dataDriveLow := true
          indicatorOut := if s.cfg.hasIndicatorLine then true else s.facade.indicatorOut }
        response := some ⟨.ok, 0#128⟩
        actions := (if s.cfg.hasIndicatorLine then [.indicator true] else []) ++
          [.dataLow, .timerStart .trig s.cfg.triggerLowMs] }
  | released (a : BitVec 32) (ht : s.facade.trigPhase = .asserting) :
      Did s (.trigDone a) { s with
        facade := { s.facade with
          trigPhase := .idle, dataDriveLow := false
          wdArmed := if s.facade.active then true else s.facade.wdArmed }
        response := some ⟨.ok, 0#128⟩
        actions := .dataInput :: (if s.facade.active then [.wdArm s.cfg.wdWindowMs] else []) }

/-- A falling edge on the last payload bit publishes or counts a mismatch. -/
theorem exec_fall_last_did (s : State) (tick : Tick) (h : s.facade.active = true) (hi : s.dec.bitIndex.toInt = 39) :
    ∃ t, exec (.fall tick) s = .next t ∧ Did s (.fall tick) t := by
  have h40 : advanceIndex s.dec.bitIndex = 40#8 := by rw [advanceIndex_eq, hi]; rfl
  rw [exec_fall_last s tick h hi]
  rcases completeFrame_cases { s with
      dec := { s.dec with
        poisoned := s.dec.poisoned || decide (200 ≤ pulseWidth s tick)
        cksAcc := appendBit s.dec.cksAcc (decide (50 ≤ pulseWidth s tick)) }
      response := some ⟨.ok, 0#128⟩, actions := [] } with ⟨hv, e⟩ | ⟨hv, e⟩
  · refine ⟨_, rfl, ?_⟩
    rw [e]
    have := Did.published (s := s) tick h hi hv
    simpa [State.advance, h40, completedFrame] using this
  · refine ⟨_, rfl, ?_⟩
    rw [e]
    have := Did.mismatched (s := s) tick h hi hv
    simpa [State.advance, h40, completedFrame] using this

/-- A timeout before bit 8 counts a miss, and past the threshold it may start a recovery. -/
theorem exec_timeout_missing_did (s : State) (a : BitVec 32) (h : s.facade.active = true) (hw : s.facade.wdArmed = true)
    (hi : s.dec.bitIndex.toInt < 8) : ∃ t, exec (.timeout a) s = .next t ∧ Did s (.timeout a) t := by
  rw [exec_timeout_missing s a h hw hi]
  refine ⟨_, rfl, ?_⟩
  rcases missedMessage_cases { s with
      facade := { s.facade with wdArmed := false }
      response := some ⟨.ok, 0#128⟩, actions := [.wdDisarm] } with ⟨hm, e⟩ | ⟨hm, e⟩
  · rw [e]
    exact Did.missed a h hw hi hm
  · rw [e]
    rcases requestRecovery_cases { s with
        errors := { s.errors with missingMessage := satInc32 s.errors.missingMessage }
        recovery := { s.recovery with consecutiveMissing := 0#8 }
        facade := { s.facade with wdArmed := false }
        response := some ⟨.ok, 0#128⟩, actions := [.wdDisarm] } with ⟨hp, e'⟩ | ⟨hp, hr, e'⟩ | ⟨hp, hr, e'⟩
    · rw [e']
      exact Did.missedNoLine a h hw hi hm hp
    · rw [e']
      exact Did.missedDropped a h hw hi hm hp hr
    · rw [e']
      exact Did.recoveryStarted a h hw hi hm hp hr

/-- A read step reads out, or says that no frame was ever valid. -/
theorem read_did (s : State) (i : Instr) (sel : ReadSel) (hk : i.kind = sel.kind) : Did s i (s.read sel) := by
  rw [read_eq]
  rcases rdPort_status s sel with ⟨h, hv⟩ | ⟨h, hr, hv, hd⟩
  · rw [h]
    exact Did.readOut i _ (by rw [hk]; cases sel <;> rfl) (by rw [hk]; exact hv)
  · rw [h, hd]
    exact Did.turnedAway i .neverValid (by decide)
      (.inr (.inr (.inr (.inr (.inl ⟨rfl, by rw [hk]; exact hr, hv⟩)))))

/-- A reserved kind is turned away as illegal. -/
theorem reserved_did (s : State) (i : Instr) (hk : i.kind.isReserved = true) :
    Did s i (answeredOnly s .illegalEvent 0#128) :=
  Did.turnedAway i .illegalEvent (by decide) (.inr (.inr (.inr (.inr (.inr ⟨rfl, hk⟩)))))

/-- A masked event is turned away as ignored. -/
theorem masked_did (s : State) (i : Instr) (hm : masked s i = true) : Did s i (answeredOnly s .ignored 0#128) :=
  Did.turnedAway i .ignored (by decide) (.inl ⟨rfl, hm⟩)

/-- Every event does one of the listed things. -/
theorem exec_did (i : Instr) (s : State) : ∃ t, exec i s = .next t ∧ Did s i t := by
  cases i with
  | fall tick =>
    cases ha : s.facade.active
    · exact ⟨_, exec_fall_inactive s tick ha, masked_did s _ (by simp [masked, eventSource, Instr.kind, ha])⟩
    · rcases lt_or_ge s.dec.bitIndex.toInt 0 with hi | hi
      · exact ⟨_, exec_fall_header s tick ha hi, .fellHeader tick ha hi⟩
      · rcases lt_or_ge s.dec.bitIndex.toInt 39 with h9 | h9
        · exact ⟨_, exec_fall_payload s tick ha hi h9, .fellPayload tick ha hi h9⟩
        · rcases lt_or_ge s.dec.bitIndex.toInt 40 with h4 | h4
          · exact exec_fall_last_did s tick ha (by omega)
          · exact ⟨_, exec_fall_idle s tick ha h4, .fellIdle tick ha h4⟩
  | rise tick =>
    cases ha : s.facade.active
    · exact ⟨_, exec_rise_inactive s tick ha, masked_did s _ (by simp [masked, eventSource, Instr.kind, ha])⟩
    · refine ⟨_, exec_rise_active s tick ha, ?_⟩
      by_cases hg : 250000 < ticksBetween s.dec.lastRisingTick tick
      · rw [if_pos hg]
        exact .roseLong tick ha hg
      · rw [if_neg hg]
        exact .roseShort tick ha hg
  | timeout a =>
    cases ha : s.facade.active
    · exact ⟨_, exec_timeout_masked s a (.inl ha), masked_did s _ (by simp [masked, eventSource, Instr.kind, ha])⟩
    · cases hw : s.facade.wdArmed
      · exact ⟨_, exec_timeout_masked s a (.inr hw), masked_did s _ (by simp [masked, eventSource, Instr.kind, hw])⟩
      · rcases lt_or_ge s.dec.bitIndex.toInt 8 with hi | hi
        · exact exec_timeout_missing_did s a ha hw hi
        · exact ⟨_, exec_timeout_later s a ha hw hi, .timedOutLater a ha hw hi⟩
  | settleDone a =>
    cases hr : s.recovery.recPhase
    · exact ⟨_, exec_settleDone_idle s a hr, masked_did s _ (by simp [masked, eventSource, Instr.kind, hr])⟩
    · exact ⟨_, exec_settleDone_offSettle s a hr, .powerRestored a hr⟩
    · exact ⟨_, exec_settleDone_onSettle s a hr, .recoveryFinished a hr⟩
  | trigReq a =>
    rcases exec_trigReq_cases s a with ⟨h, e⟩ | ⟨ha, h, e⟩ | ⟨ha, hp, h, e⟩ | ⟨h1, h2, h3, e⟩
    · exact ⟨_, e, .turnedAway _ _ (by decide) (.inr (.inl ⟨rfl, rfl, h⟩))⟩
    · exact ⟨_, e, .turnedAway _ _ (by decide) (.inr (.inr (.inl ⟨rfl, rfl, ha, h⟩)))⟩
    · exact ⟨_, e, .turnedAway _ _ (by decide) (.inr (.inr (.inr (.inl ⟨rfl, rfl, ha, hp, h⟩))))⟩
    · exact ⟨_, e, .triggered a h1 h2 h3⟩
  | trigDone a =>
    cases ht : s.facade.trigPhase
    · exact ⟨_, exec_trigDone_idle s a ht, masked_did s _ (by simp [masked, eventSource, Instr.kind, ht])⟩
    · exact ⟨_, exec_trigDone_asserting s a ht, .released a ht⟩
  | shutdown a =>
    rcases exec_shutdown_cases s a with ⟨h, e⟩ | ⟨h, e⟩
    · exact ⟨_, e, .shut a h⟩
    · exact ⟨_, e, .shutAgain a h⟩
  | reserved7 a => exact ⟨_, rfl, reserved_did s _ rfl⟩
  | rdHumidity a => exact ⟨_, rfl, read_did s _ .humidity rfl⟩
  | rdTemperature a => exact ⟨_, rfl, read_did s _ .temperature rfl⟩
  | rdStaleness a => exact ⟨_, rfl, read_did s _ .staleness rfl⟩
  | rdDiagnostics a => exact ⟨_, rfl, read_did s _ .diagnostics rfl⟩
  | rdStatus a => exact ⟨_, rfl, read_did s _ .status rfl⟩
  | reservedD a => exact ⟨_, rfl, reserved_did s _ rfl⟩
  | reservedE a => exact ⟨_, rfl, reserved_did s _ rfl⟩
  | reservedF a => exact ⟨_, rfl, reserved_did s _ rfl⟩

/-- The inversion: what `exec` answers is one of the listed things. -/
theorem did_of_exec {i : Instr} {s t : State} (h : exec i s = .next t) : Did s i t := by
  obtain ⟨t', h', d⟩ := exec_did i s
  rw [h] at h'
  cases h'
  exact d

/-- A step is hardware reset, an event, or idle. -/
theorem step_cases {s t : State} (h : step s = .next t) :
    (s.pending = [] ∧ t = s) ∨
    (∃ p rest, s.pending = p :: rest ∧ p.rst = true ∧ t = { State.resetWith s.cfg with pending := rest }) ∨
    (∃ p rest, s.pending = p :: rest ∧ p.rst = false ∧ p.evValid = true ∧
      Did { s with pending := rest, wallNow := p.wallNow } (decode p.evWord) t) ∨
    (∃ p rest, s.pending = p :: rest ∧ p.rst = false ∧ p.evValid = false ∧ t = { s with pending := rest }) := by
  unfold step at h
  cases hp : s.pending with
  | nil =>
    rw [hp] at h
    cases h
    exact .inl ⟨rfl, rfl⟩
  | cons p rest =>
    rw [hp] at h
    cases hr : p.rst
    · cases he : p.evValid
      · simp only [hr, he] at h
        cases h
        exact .inr (.inr (.inr ⟨p, rest, rfl, hr, he, rfl⟩))
      · simp only [hr, he, Bool.false_eq_true, if_false, if_true] at h
        exact .inr (.inr (.inl ⟨p, rest, rfl, hr, he, did_of_exec h⟩))
    · simp only [hr, if_true] at h
      cases h
      exact .inr (.inl ⟨p, rest, rfl, hr, rfl⟩)

/-- A run of one more step is the first step and the run from where it leads. -/
theorem run_succ {s t : State} (k : Nat) (h : step s = .next t) :
    Host.Core.run Sys2Proof.core (k + 1) s = Host.Core.run Sys2Proof.core k t := by
  have e := Host.Core.run.eq_2 Sys2Proof.core s k
  rw [show Sys2Proof.core.step s = .next t from h] at e
  exact e

/-- What every step keeps, every run keeps. -/
theorem run_keeps {P : State → Prop} (keeps : ∀ s t, P s → step s = .next t → P t) :
    ∀ (k : Nat) (s t : State), P s → Host.Core.run Sys2Proof.core k s = .next t → P t
  | 0, s, t, hs, h => by
    have e := Host.Core.run.eq_1 Sys2Proof.core s
    cases e.symm.trans h
    exact hs
  | k + 1, s, t, hs, h => by
    cases hu : step s with
    | next u =>
      rw [run_succ k hu] at h
      exact run_keeps keeps k u t (keeps s u hs hu) h
    | fault f => exact nomatch f
    | refused r =>
      have e := Host.Core.run.eq_2 Sys2Proof.core s k
      rw [show Sys2Proof.core.step s = .refused r from hu] at e
      cases e.symm.trans h

end Sys2Proof.Machine
end

