-- ==== Sys2Proof/Laws/PerInstr.lean ====
section
/-! SUPPORT. The family `EncodeFields` of LAWS.json, instruction by instruction: an encoded word holds the kind's code in
bits 35..32 and the argument in bits 31..0 (spec/30_encoding.md R70). -/

namespace Sys2Proof.Laws

/-- The two fields of an EV36 word, put together, read back as they are. -/
theorem fields_append (c : BitVec 4) (a : BitVec 32) : kindField (c ++ a) = c ∧ argField (c ++ a) = a := 
  ⟨extract_upper c a, extract_lower c a⟩

/-- The encoded word of `i` holds its kind's code and its argument. -/
def EncodeFields.Statement (i : Instr) : Prop := kindField (encode i) = i.kind.code ∧ argField (encode i) = i.arg

theorem EncodeFields.fall (t : Tick) : EncodeFields.Statement (.fall t) := fields_append _ _
theorem EncodeFields.rise (t : Tick) : EncodeFields.Statement (.rise t) := fields_append _ _
theorem EncodeFields.timeout (a : BitVec 32) : EncodeFields.Statement (.timeout a) := fields_append _ _
theorem EncodeFields.settleDone (a : BitVec 32) : EncodeFields.Statement (.settleDone a) := fields_append _ _
theorem EncodeFields.trigReq (a : BitVec 32) : EncodeFields.Statement (.trigReq a) := fields_append _ _
theorem EncodeFields.trigDone (a : BitVec 32) : EncodeFields.Statement (.trigDone a) := fields_append _ _
theorem EncodeFields.shutdown (a : BitVec 32) : EncodeFields.Statement (.shutdown a) := fields_append _ _
theorem EncodeFields.reserved7 (a : BitVec 32) : EncodeFields.Statement (.reserved7 a) := fields_append _ _
theorem EncodeFields.rdHumidity (a : BitVec 32) : EncodeFields.Statement (.rdHumidity a) := fields_append _ _
theorem EncodeFields.rdTemperature (a : BitVec 32) : EncodeFields.Statement (.rdTemperature a) := fields_append _ _
theorem EncodeFields.rdStaleness (a : BitVec 32) : EncodeFields.Statement (.rdStaleness a) := fields_append _ _
theorem EncodeFields.rdDiagnostics (a : BitVec 32) : EncodeFields.Statement (.rdDiagnostics a) := fields_append _ _
theorem EncodeFields.rdStatus (a : BitVec 32) : EncodeFields.Statement (.rdStatus a) := fields_append _ _
theorem EncodeFields.reservedD (a : BitVec 32) : EncodeFields.Statement (.reservedD a) := fields_append _ _
theorem EncodeFields.reservedE (a : BitVec 32) : EncodeFields.Statement (.reservedE a) := fields_append _ _
theorem EncodeFields.reservedF (a : BitVec 32) : EncodeFields.Statement (.reservedF a) := fields_append _ _

end Sys2Proof.Laws
end

