-- ==== Sys2Proof/Tests/Slice0.lean ====
section
/-! SUPPORT. Small tests. Expected values are those of spec/95_test_vectors.md (the vector group V<n> or scenario S<n> is named)
or worked by hand from the rule named; words are written out from spec/30_encoding.md R70, R71. The last part shows, for every
statement with hypotheses, states and operands that meet them, each clause at the ends of its range. -/

namespace Sys2Proof.Tests

open Sys2Proof.Machine

/-! ## Helpers -/

/-- The state an event leads to. -/
def nextOf (i : Instr) (s : State) : State :=
  match exec i s with
  | .next t => t
  | .fault f => nomatch f
  | .refused _ => s

/-- Every event leads to `nextOf`. -/
theorem exec_nextOf (i : Instr) (s : State) : exec i s = .next (nextOf i s) := by
  obtain ⟨t, h, _⟩ := exec_did i s
  unfold nextOf
  rw [h]

/-- The response word and the action words of a state. -/
def said (s : State) : Option (BitVec 132) × List (BitVec 36) := (s.response.map Response.word, s.actions.map Action.word)

/-- Reset state, with another Decode State (the tick 1000 of the vectors V3 and V4). -/
def withDec (f : DecodeState → DecodeState) : State :=
  { State.reset with dec := f { State.reset.dec with lastRisingTick := 1000#32 } }

/-- Reset state, `last_rising_tick = 1000` and a sequencer value. -/
def atBit (i : Int) : State := withDec fun d => { d with bitIndex := BitVec.ofInt 8 i }

/-- The start of the vectors V3. -/
def riseStart : State := withDec fun d => { d with bitIndex := 17#8, humHi := 9#8, poisoned := true }

/-- The start of the vectors V5: seven bits of the checksum byte received. -/
def lastBitStart : State :=
  let s := withDec fun d => { d with bitIndex := 39#8, humHi := 0x01#8, humLo := 0x38#8, tmpLo := 0xC4#8, cksAcc := 0x7E#8 }
  { s with
    wallNow := 9#64
    recovery := { s.recovery with consecutiveMissing := 2#8 }
    facade := { s.facade with wdArmed := true, indicatorOut := true } }

/-- The start of the vectors V7: watchdog armed, a streak, a sequencer value. -/
def timeoutStart (i : Int) (streak : BitVec 8) : State :=
  let s := atBit i
  { s with recovery := { s.recovery with consecutiveMissing := streak }, facade := { s.facade with wdArmed := true } }

/-- Reset state in a phase of the recovery. -/
def inRecovery (p : RecPhase) : State :=
  { State.reset with
    recovery := { State.reset.recovery with recPhase := p, powered := p == .idle }
    facade := { State.reset.facade with powerOut := p != .offSettle } }

/-- Reset state with the trigger window running. -/
def triggering : State := { State.reset with facade := { State.reset.facade with trigPhase := .asserting, dataDriveLow := true } }

/-- Reset state after a shutdown. -/
def shutDown : State := { State.reset with facade := { State.reset.facade with active := false } }

/-- A state with a valid Reading: 31.2, -10.0, since 5000, the wall clock at 5300. -/
def measured : State :=
  { State.reset with
    wallNow := 5300#64
    reading := { readingValid := true, humidityTenths := 312#16, temperatureTenths := 0xFF9C#16, validSince := 5000#64 } }

/-! ## WellFormed smoke: each check refuses an ill-formed term -/

theorem test_argClear_refuses : (Instr.timeout 1#32).argClear = false ∧ (Instr.timeout 1#32).wellFormed = false := by decide

theorem test_kindDefined_refuses : (Instr.reserved7 0#32).kindDefined = false ∧ (Instr.reservedF 0#32).wellFormed = false := by
  decide

theorem test_wellFormed_accepts : (Instr.fall 0xFFFFFFFF#32).wellFormed = true ∧ (Instr.shutdown 0#32).wellFormed = true := by
  decide

/-! ## Decoding: every constructor, from words written out -/

theorem test_decode_edges :
    decode 0b000000000000000011111000010011010000#36 = .fall 1017040#32 ∧
    decode 0b000100000000000000111101010001111000#36 = .rise 251000#32 := by decide

theorem test_decode_timeout : decode 0b001000000000000000000000000000000000#36 = .timeout 0#32 := by decide

theorem test_decode_settleDone : decode 0b001100000000000000000000000000000000#36 = .settleDone 0#32 := by decide

theorem test_decode_facade :
    decode 0b010000000000000000000000000000000000#36 = .trigReq 0#32 ∧
    decode 0x500000000#36 = .trigDone 0#32 ∧ decode 0x600000000#36 = .shutdown 0#32 := by decide

theorem test_decode_reads :
    decode 0b100000000000000000000000000000000000#36 = .rdHumidity 0#32 ∧
    decode 0x900000000#36 = .rdTemperature 0#32 ∧ decode 0xA00000000#36 = .rdStaleness 0#32 ∧
    decode 0xB00000000#36 = .rdDiagnostics 0#32 ∧ decode 0xC00000000#36 = .rdStatus 0#32 := by decide

/-- A non-zero reserved `arg` stays legal and is kept (R72). -/
theorem test_decode_reserved :
    decode 0b011100000000000000000000000000000000#36 = .reserved7 0#32 ∧
    decode 0xD00000000#36 = .reservedD 0#32 ∧ decode 0xE00000000#36 = .reservedE 0#32 ∧
    decode 0xF00000000#36 = .reservedF 0#32 ∧ decode 0x400000001#36 = .trigReq 1#32 := by decide

theorem test_encode_words :
    encode (.rise 251001#32) = 0x10003D479#36 ∧ encode (.fall 1070#32) = 0x00000042E#36 ∧
    encode (.rdStatus 0#32) = 0xC00000000#36 := by decide

theorem test_decodeTableWord :
    decodeTableWord 40 0x10003D479 = some (.rise 251001#32) ∧ decodeTableWord 36 0xB00000000 = some (.rdDiagnostics 0#32) := by
  decide

theorem test_decodeBytes_truncated : (decodeBytes [0#8, 0#8, 0#8, 0#8]).isOk = false := by decide

/-! ## Tick arithmetic, discriminator, value decoder (V1, V2, V6) -/

theorem test_elapsed :
    elapsed 1000#32 251001#32 = 250001#32 ∧ elapsed 0xFFFFFFF0#32 0x10#32 = 0x20#32 ∧ elapsed 5#32 3#32 = 0xFFFFFFFE#32 := by
  decide

theorem test_classify :
    [0#32, 26#32, 49#32, 50#32, 70#32, 199#32, 200#32, 250000#32, 0xFFFFFFFF#32].map classify =
      [⟨false, false⟩, ⟨false, false⟩, ⟨false, false⟩, ⟨true, false⟩, ⟨true, false⟩, ⟨true, false⟩, ⟨true, true⟩,
        ⟨true, true⟩, ⟨true, true⟩] := by decide

theorem test_humidity_values :
    humRaw 0x01#8 0x38#8 = 312#16 ∧ humRaw 0x03#8 0xE8#8 = 1000#16 ∧ humRaw 0xFF#8 0xFF#8 = 65535#16 := by decide

theorem test_temperature_values :
    tmpRaw 0x00#8 0xC4#8 = 0x00C4#16 ∧ tmpRaw 0x7F#8 0xFF#8 = 0x7FFF#16 ∧ tmpRaw 0x80#8 0x00#8 = 0x0000#16 ∧
    tmpRaw 0x80#8 0x01#8 = 0xFFFF#16 ∧ tmpRaw 0x80#8 0x64#8 = 0xFF9C#16 ∧ tmpRaw 0xFF#8 0xFF#8 = 0x8001#16 := by decide

/-! ## One step of each instruction -/

/-- V3, rows 1 and 2: a gap of 250000 keeps the frame, 250001 starts a new one. -/
theorem test_rise_gap :
    (nextOf (.rise 251000#32) riseStart).dec = { riseStart.dec with lastRisingTick := 251000#32 } ∧
    (nextOf (.rise 251001#32) riseStart).dec = { State.reset.dec with lastRisingTick := 251001#32 } := by decide

/-- V3, rows 4 and 5: a tick numerically smaller is a long gap; no edge is taken after shutdown. -/
theorem test_rise_backwards_and_inactive :
    (nextOf (.rise 999#32) riseStart).dec.bitIndex = 0xFE#8 ∧
    said (nextOf (.rise 251001#32) shutDown) = (some 0x500000000000000000000000000000000#132, []) ∧
    (nextOf (.rise 251001#32) shutDown).dec = shutDown.dec := by decide

/-- V4: header, payload, byte boundary, poison, idle, saturation. -/
theorem test_fall_rows :
    (nextOf (.fall 101000#32) (atBit (-1))).dec = { (atBit (-1)).dec with bitIndex := 0#8 } ∧
    (nextOf (.fall 1070#32) (withDec fun d => { d with bitIndex := 3#8, humHi := 0b101#8 })).dec.humHi = 0b1011#8 ∧
    (nextOf (.fall 1070#32) (atBit 8)).dec.humLo = 1#8 ∧
    ((nextOf (.fall 1200#32) (atBit 16)).dec.tmpHi, (nextOf (.fall 1200#32) (atBit 16)).dec.poisoned) = (1#8, true) ∧
    (nextOf (.fall 101000#32) (atBit 45)).dec = { (atBit 45).dec with bitIndex := 46#8 } ∧
    (nextOf (.fall 1070#32) (atBit 127)).dec = (atBit 127).dec := by decide

/-- V5: the last bit of a valid frame, and of one poisoned by that very bit. -/
theorem test_fall_last_bit :
    (nextOf (.fall 1070#32) lastBitStart).reading =
      { readingValid := true, humidityTenths := 312#16, temperatureTenths := 196#16, validSince := 9#64 } ∧
    said (nextOf (.fall 1070#32) lastBitStart) = (some 0#132, [0x000000000#36, 0x500000000#36]) ∧
    (nextOf (.fall 1200#32) lastBitStart).reading.readingValid = false ∧
    (nextOf (.fall 1200#32) lastBitStart).errors.badChecksum = 1#32 ∧
    said (nextOf (.fall 1200#32) lastBitStart) = (some 0#132, [0x000000000#36]) := by decide

/-- V7: Missing before bit 8, Short before bit 39, Complete from there on; S9. -/
theorem test_timeout_outcomes :
    [-2, 5, 7, 8, 20, 38, 39, 127].map (fun i =>
        let t := nextOf (.timeout 0#32) (timeoutStart i 1#8)
        (t.errors.missingMessage, t.errors.shortMessage, t.recovery.consecutiveMissing, t.response.map Response.data)) =
      [(1#32, 0#32, 2#8, some 0#128), (1#32, 0#32, 2#8, some 0#128), (1#32, 0#32, 2#8, some 0#128),
       (0#32, 1#32, 0#8, some 1#128), (0#32, 1#32, 0#8, some 1#128), (0#32, 1#32, 0#8, some 1#128),
       (0#32, 0#32, 0#8, some 2#128), (0#32, 0#32, 0#8, some 2#128)] := by decide

/-- V7, threshold: the third miss fires; A_WD_DISARM, A_POWER(0), A_TIMER_START(SETTLE, 2). -/
theorem test_timeout_threshold :
    (nextOf (.timeout 0#32) (timeoutStart (-2) 2#8)).recovery =
      { consecutiveMissing := 0#8, recPhase := .offSettle, powered := false } ∧
    said (nextOf (.timeout 0#32) (timeoutStart (-2) 2#8)) = (some 0#132, [0x000000000#36, 0x400000000#36, 0x680000002#36]) := by
  decide

/-- V8, rows 1 and 2. -/
theorem test_settleDone :
    (nextOf (.settleDone 0#32) (inRecovery .offSettle)).recovery = { (inRecovery .onSettle).recovery with powered := false } ∧
    said (nextOf (.settleDone 0#32) (inRecovery .offSettle)) = (some 0#132, [0x400000001#36, 0x680000002#36]) ∧
    (nextOf (.settleDone 0#32) (inRecovery .onSettle)).recovery = State.reset.recovery ∧
    (nextOf (.settleDone 0#32) (inRecovery .onSettle)).errors.sensorReset = 1#32 := by decide

/-- V9, row 1. -/
theorem test_trigReq_accepted :
    (nextOf (.trigReq 0#32) State.reset).facade = { triggering.facade with indicatorOut := true } ∧
    said (nextOf (.trigReq 0#32) State.reset) = (some 0#132, [0x500000001#36, 0x200000000#36, 0x600000011#36]) := by decide

/-- V9, rows 3, 4 and 5. -/
theorem test_trigReq_rejected :
    [inRecovery .offSettle, triggering, shutDown].map (fun s => said (nextOf (.trigReq 0#32) s)) =
      [(some 0x100000000000000000000000000000000#132, []), (some 0x200000000000000000000000000000000#132, []),
       (some 0x300000000000000000000000000000000#132, [])] := by decide

/-- V9: TRIG_DONE with the window running. -/
theorem test_trigDone :
    (nextOf (.trigDone 0#32) triggering).facade = { State.reset.facade with wdArmed := true } ∧
    said (nextOf (.trigDone 0#32) triggering) = (some 0#132, [0x300000000#36, 0x1000000C8#36]) := by decide

/-- V11 and S6: the first SHUTDOWN disarms and unsubscribes, the second only answers. -/
theorem test_shutdown :
    (nextOf (.shutdown 0#32) (timeoutStart 5 1#8)).facade = shutDown.facade ∧
    said (nextOf (.shutdown 0#32) (timeoutStart 5 1#8)) = (some 0#132, [0x000000000#36, 0x700000000#36]) ∧
    said (nextOf (.shutdown 0#32) shutDown) = (some 0#132, []) := by decide

/-- V10: the reads of the Reading, before and after a valid frame. -/
theorem test_reads_of_the_reading :
    [Instr.rdHumidity 0#32, .rdTemperature 0#32, .rdStaleness 0#32].map (fun i => said (nextOf i measured)) =
      [(some 312#132, []), (some 0xFF9C#132, []), (some 300#132, [])] ∧
    [Instr.rdHumidity 0#32, .rdTemperature 0#32, .rdStaleness 0#32].map (fun i => said (nextOf i State.reset)) =
      [(some 0x400000000000000000000000000000000#132, []), (some 0x400000000000000000000000000000000#132, []),
       (some 0x400000000000000000000000000000000#132, [])] := by decide

/-- V10: RD_DIAGNOSTICS. -/
theorem test_rdDiagnostics :
    said (nextOf (.rdDiagnostics 0#32) { State.reset with
        errors := { badChecksum := 1#32, shortMessage := 0#32, missingMessage := 3#32, sensorReset := 1#32 } }) =
      (some 0x00000001000000030000000000000001#132, []) := by decide

/-- V10: RD_STATUS of five states. -/
theorem test_rdStatus :
    [State.reset, inRecovery .offSettle, timeoutStart 5 2#8].map (fun s => said (nextOf (.rdStatus 0#32) s)) =
      [(some 0x00FE03#132, []), (some 0x00FE12#132, []), (some 0x020507#132, [])] := by decide

/-- V11: a reserved kind is an illegal event. -/
theorem test_reserved :
    [Instr.reserved7 0#32, .reservedD 0#32, .reservedE 0#32, .reservedF 5#32].map (fun i => said (nextOf i State.reset)) =
      List.replicate 4 (some 0xF00000000000000000000000000000000#132, []) ∧
    nextOf (.reserved7 0#32) State.reset = answeredOnly State.reset .illegalEvent 0#128 := by decide

/-! ## One step of the block -/

/-- A word placed by `withFetchWord` runs in the very next step, the first after reset. -/
theorem test_withFetchWord_runs :
    step (State.reset.withFetchWord 40 0x400000000) = .next (nextOf (.trigReq 0#32) State.reset) := rfl

/-- R280: reset forgets a running trigger window and the counters. -/
theorem test_hardware_reset :
    step { triggering with
        errors := { State.reset.errors with badChecksum := 7#32 }
        pending := [{ rst := true, evValid := true, evWord := 0x400000000#36, wallNow := 3#64 }] } = .next State.reset := rfl

/-! ## The textual notation (R78, R79) -/

theorem test_listing_lines :
    parseLine "  RISE 0x3D479 @wall=777 ; a comment".toList = some (.event (.rise 251001#32) (some 777#64)) ∧
    parseLine "TRIG_REQ".toList = some (.event (.trigReq 0#32) none) ∧
    parseLine "FALL".toList = none ∧ parseLine "TIMEOUT 5".toList = none ∧ parseLine "RESET".toList = some .reset := by decide

/-- A line without `@wall=` keeps the value of the line before (R78). -/
theorem test_listing_wall_carries_forward :
    (assemble ["RD_STALENESS @wall=9".toList, "".toList, "RD_STATUS".toList]).map (·.map fun p => (p.evWord, p.wallNow)) =
      some [(0xA00000000#36, 9#64), (0xC00000000#36, 9#64)] := by decide

theorem test_header_takes_the_index_to_bit_0 :
    headerEvents 1000#32 = [.rise 1000#32, .fall 1030#32, .rise 1110#32, .fall 1190#32] ∧
    byteEvents 0x80#8 0#32 = bitEvents true 0#32 ++ (byteEvents 0x00#8 120#32).take 14 := by decide

/-! ## Witnesses: the hypotheses of every statement are met -/

theorem test_witness_ReservedArgumentIsIgnored : Kind.timeout.isEdge = false ∧ Kind.reservedF.isEdge = false := by decide

/-- The samples of the step witnesses: an event, an idle port, reset. -/
def anEvent : PortSample := { rst := false, evValid := true, evWord := 0xC00000000#36, wallNow := 7#64 }

/-- A sample with no event. -/
def noEvent : PortSample := { anEvent with evValid := false }

/-- A sample with `rst` asserted. -/
def aReset : PortSample := { anEvent with rst := true }

theorem test_witness_StepRunsTheDecodedEvent :
    { State.reset with pending := [anEvent, noEvent] }.pending = anEvent :: [noEvent] ∧ anEvent.rst = false ∧
    anEvent.evValid = true ∧ decode anEvent.evWord = .rdStatus 0#32 := by decide

theorem test_witness_StepWithoutAnEventChangesNothing :
    State.reset.pending = [] ∧ { State.reset with pending := [noEvent] }.pending = noEvent :: [] ∧ noEvent.rst = false ∧
    noEvent.evValid = false := by decide

theorem test_witness_HardwareResetOverridesEverything :
    { triggering with pending := [aReset] }.pending = aReset :: [] ∧ aReset.rst = true := by decide

theorem test_witness_ElapsedIsTheDifferenceModuloTheWrap : (0#32 : Tick).toNat < (0xFFFFFFFF#32 : Tick).toNat := by decide

theorem test_witness_PulseWidthsClassifyByTheThresholds :
    ((0#32 : Tick).toNat < 50 ∧ (49#32 : Tick).toNat < 50) ∧
    (50 ≤ (50#32 : Tick).toNat ∧ (50#32 : Tick).toNat < 200) ∧ (50 ≤ (199#32 : Tick).toNat ∧ (199#32 : Tick).toNat < 200) ∧
    200 ≤ (200#32 : Tick).toNat ∧ 200 ≤ (0xFFFFFFFF#32 : Tick).toNat := by decide

theorem test_witness_MaskedEventsAreCompleteNoOps :
    masked shutDown (.rise 1#32) = true ∧ masked State.reset (.timeout 0#32) = true ∧
    masked State.reset (.settleDone 0#32) = true ∧ masked State.reset (.trigDone 0#32) = true ∧
    shutDown.facade.active = false ∧ State.reset.facade.wdArmed = false ∧ State.reset.recovery.recPhase = .idle ∧
    State.reset.facade.trigPhase = .idle := by decide

theorem test_witness_RiseRecordsTheTickAndALongGapStartsAFrame :
    riseStart.facade.active = true ∧ ¬ 250000 < ticksBetween riseStart.dec.lastRisingTick 251000#32 ∧
    250000 < ticksBetween riseStart.dec.lastRisingTick 251001#32 := by decide

theorem test_witness_HeaderFallingEdgeOnlyAdvancesTheIndex :
    (atBit (-2)).facade.active = true ∧ (atBit (-2)).dec.bitIndex.toInt < 0 ∧ (atBit (-1)).dec.bitIndex.toInt < 0 ∧
    (atBit (-128)).dec.bitIndex.toInt < 0 := by decide

theorem test_witness_IdleFallingEdgeOnlyAdvancesTheIndex :
    (atBit 40).facade.active = true ∧ 40 ≤ (atBit 40).dec.bitIndex.toInt ∧ 40 ≤ (atBit 127).dec.bitIndex.toInt := by decide

theorem test_witness_PayloadFallingEdgeShiftsOneByte :
    ∀ i ∈ [0, 7, 8, 15, 16, 23, 24, 31, 32, 38],
      (atBit i).facade.active = true ∧ 0 ≤ (atBit i).dec.bitIndex.toInt ∧ (atBit i).dec.bitIndex.toInt < 39 := by decide

theorem test_witness_LastBitOfAValidFramePublishesTheReading :
    lastBitStart.facade.active = true ∧ lastBitStart.dec.bitIndex.toInt = 39 ∧ lastBitStart.dec.poisoned = false ∧
    pulseWidth lastBitStart 1199#32 < 200 ∧ pulseWidth lastBitStart 1050#32 = 50 ∧
    sumMatches lastBitStart.dec (appendBit lastBitStart.dec.cksAcc (decide (50 ≤ pulseWidth lastBitStart 1199#32))) := by
  unfold sumMatches; decide

theorem test_witness_LastBitOfAnInvalidFrameCountsAChecksumMismatch :
    lastBitStart.facade.active = true ∧ lastBitStart.dec.bitIndex.toInt = 39 ∧
    ¬ pulseWidth lastBitStart 1200#32 < 200 ∧
    ¬ sumMatches lastBitStart.dec (appendBit lastBitStart.dec.cksAcc (decide (50 ≤ pulseWidth lastBitStart 1049#32))) := by
  unfold sumMatches; decide

theorem frameInv_atBit_0 : FrameInv (atBit 0) := by constructor <;> decide

theorem frameInv_atBit_39 : FrameInv (atBit 39) := by constructor <;> decide

theorem test_witness_ShiftInWritesExactlyOneByte :
    (∀ i ∈ [0, 7, 8, 15, 16, 23, 24, 31, 32, 39], i ≤ 39) ∧
    FrameInv (atBit 0) ∧ (atBit 0).dec.bitIndex.toInt = (0 : Nat) ∧
    FrameInv (atBit 8) ∧ (atBit 8).dec.bitIndex.toInt = (8 : Nat) ∧
    FrameInv (atBit 16) ∧ (atBit 16).dec.bitIndex.toInt = (16 : Nat) ∧
    FrameInv (atBit 31) ∧ (atBit 31).dec.bitIndex.toInt = (31 : Nat) ∧
    FrameInv (atBit 39) ∧ (atBit 39).dec.bitIndex.toInt = (39 : Nat) :=
  ⟨by decide, frameInv_atBit_0, by decide, by constructor <;> decide, by decide, by constructor <;> decide, by decide,
   by constructor <;> decide, by decide, frameInv_atBit_39, by decide⟩

theorem test_witness_PayloadBitsFormOneBigEndianNumber :
    (FrameInv (atBit 0) ∧ (atBit 0).facade.active = true ∧ 0 ≤ (atBit 0).dec.bitIndex.toInt ∧
      (atBit 0).dec.bitIndex.toInt ≤ 39 ∧ exec (.fall 1070#32) (atBit 0) = .next (nextOf (.fall 1070#32) (atBit 0))) ∧
    (FrameInv (atBit 39) ∧ (atBit 39).facade.active = true ∧ 0 ≤ (atBit 39).dec.bitIndex.toInt ∧
      (atBit 39).dec.bitIndex.toInt ≤ 39 ∧ exec (.fall 1070#32) (atBit 39) = .next (nextOf (.fall 1070#32) (atBit 39)) ∧
      (nextOf (.fall 1070#32) (atBit 39)).dec.bitIndex.toInt = 40) :=
  ⟨⟨frameInv_atBit_0, by decide, by decide, by decide, exec_nextOf _ _⟩,
   ⟨frameInv_atBit_39, by decide, by decide, by decide, exec_nextOf _ _, by decide⟩⟩

/-- Two pulses of a frame attempt that starts at bit 38: the second carries bit 39 and is long. -/
def twoPulses : List (Tick × Tick) := [(251000#32, 251026#32), (251100#32, 251300#32)]

theorem test_witness_PulsesOfOneFrameAreReceivedInOrder :
    FrameInv (atBit 38) ∧ (atBit 38).facade.active = true ∧ 0 ≤ (atBit 38).dec.bitIndex.toInt ∧
    (atBit 38).dec.bitIndex.toInt + twoPulses.length ≤ 40 ∧ pacedFrom (atBit 38).dec.lastRisingTick twoPulses ∧
    ((atBit 0).dec.bitIndex.toInt + twoPulses.length < 40 ∧ pacedFrom (atBit 0).dec.lastRisingTick twoPulses) :=
  ⟨by constructor <;> decide, by decide, by decide, by decide, ⟨by decide, by decide, trivial⟩,
   by decide, ⟨by decide, by decide, trivial⟩⟩

theorem test_witness_ValueDecodingIsExact :
    { State.reset.reading with humidityTenths := 312#16 }.humidityTenths = humRaw 0x01#8 0x38#8 ∧
    { State.reset.reading with temperatureTenths := 0xFF9C#16 }.temperatureTenths = tmpRaw 0x80#8 0x64#8 := by decide

theorem test_witness_ValidityIsTheSumAndNoPoison :
    (sumMatches State.reset.dec State.reset.dec.cksAcc ∧ State.reset.dec.poisoned = false) ∧
    ¬ (sumMatches lastBitStart.dec lastBitStart.dec.cksAcc ∧ lastBitStart.dec.poisoned = false) := by unfold sumMatches; decide

theorem test_witness_PublishWritesTheReadingWhole :
    exec (.fall 1070#32) lastBitStart = .next (nextOf (.fall 1070#32) lastBitStart) ∧
    (nextOf (.fall 1070#32) lastBitStart).reading ≠ lastBitStart.reading := ⟨exec_nextOf _ _, by decide⟩

theorem test_witness_ShortMessageAndCompleteClearTheStreak :
    ∀ i ∈ [-2, 7, 8, 38, 39, 127],
      (timeoutStart i 2#8).facade.active = true ∧ (timeoutStart i 2#8).facade.wdArmed = true ∧
      (timeoutStart i 2#8).dec.bitIndex.toInt = i := by decide

theorem test_witness_MissingMessageLengthensTheStreak :
    ∀ i ∈ [-2, -1, 0, 7], ∀ n ∈ [0#8, 1#8],
      (timeoutStart i n).facade.active = true ∧ (timeoutStart i n).facade.wdArmed = true ∧
      (timeoutStart i n).dec.bitIndex.toInt < 8 ∧
      (timeoutStart i n).recovery.consecutiveMissing.toNat + 1 ≤ (timeoutStart i n).cfg.maxNoResponse.val := by decide

theorem test_witness_TooManyMissesStartTheRecovery :
    ∀ i ∈ [-2, 7],
      (timeoutStart i 2#8).facade.active = true ∧ (timeoutStart i 2#8).facade.wdArmed = true ∧
      (timeoutStart i 2#8).dec.bitIndex.toInt < 8 ∧
      (timeoutStart i 2#8).cfg.maxNoResponse.val < (timeoutStart i 2#8).recovery.consecutiveMissing.toNat + 1 ∧
      (timeoutStart i 2#8).cfg.hasPowerLine = true ∧ (timeoutStart i 2#8).recovery.recPhase = .idle := by decide

/-- A channel without a power line and one with a recovery running, both at the threshold. -/
def cannotCycle : List State :=
  [{ timeoutStart 7 2#8 with cfg := { Config.reference with hasPowerLine := false } },
   { timeoutStart 7 2#8 with recovery := { consecutiveMissing := 2#8, recPhase := .offSettle, powered := false } }]

theorem test_witness_TooManyMissesWithoutANewPowerCycle :
    ∀ s ∈ cannotCycle,
      s.facade.active = true ∧ s.facade.wdArmed = true ∧ s.dec.bitIndex.toInt < 8 ∧
      s.cfg.maxNoResponse.val < s.recovery.consecutiveMissing.toNat + 1 ∧
      (s.cfg.hasPowerLine = false ∨ s.recovery.recPhase ≠ .idle) := by decide

theorem test_witness_TimeoutFromBitEightOnClearsTheStreak :
    ∀ i ∈ [8, 38, 39, 40, 127],
      (timeoutStart i 2#8).facade.active = true ∧ (timeoutStart i 2#8).facade.wdArmed = true ∧
      8 ≤ (timeoutStart i 2#8).dec.bitIndex.toInt := by decide

/-- A streak of misses from reset. -/
def missRun : Nat → State
  | 0 => State.reset
  | k + 1 => nextOf (.timeout 0#32) { missRun k with facade := { (missRun k).facade with wdArmed := true } }

theorem test_witness_RecoveryFiresExactlyAfterTheThreshold :
    State.reset.facade.active = true ∧ State.reset.dec.bitIndex.toInt < 8 ∧ State.reset.cfg.hasPowerLine = true ∧
    State.reset.recovery = { consecutiveMissing := 0#8, recPhase := .idle, powered := true } ∧ missRun 0 = State.reset ∧
    (∀ k, k ≤ State.reset.cfg.maxNoResponse.val →
      exec (.timeout 0#32) { missRun k with facade := { (missRun k).facade with wdArmed := true } } = .next (missRun (k + 1))) ∧
    (missRun 3).recovery.recPhase = .offSettle :=
  ⟨by decide, by decide, by decide, by decide, rfl, fun _ _ => exec_nextOf _ _, by decide⟩

theorem test_witness_FirstSettlingDelayEndsWithPowerOn : (inRecovery .offSettle).recovery.recPhase = .offSettle := by decide

theorem test_witness_SecondSettlingDelayEndsTheRecovery : (inRecovery .onSettle).recovery.recPhase = .onSettle := by decide

theorem test_witness_AcceptedTriggerStartsTheWindow :
    State.reset.facade.active = true ∧ State.reset.recovery.powered = true ∧ State.reset.facade.trigPhase = .idle := by decide

theorem test_witness_RejectedTriggerIsACompleteNoOp :
    shutDown.facade.active = false ∧
    ((inRecovery .offSettle).facade.active = true ∧ (inRecovery .offSettle).recovery.powered = false) ∧
    (triggering.facade.active = true ∧ triggering.recovery.powered = true ∧ triggering.facade.trigPhase = .asserting) := by
  decide

theorem test_witness_EndOfTheWindowReleasesTheLineAndArms : triggering.facade.trigPhase = .asserting := by decide

theorem test_witness_ShutdownDisarmsAndUnsubscribesOnce :
    State.reset.facade.active = true ∧ shutDown.facade.active = false := by decide

theorem test_witness_ReadsOfAValidReadingReturnIt : measured.reading.readingValid = true := by decide

theorem test_witness_ReadsBeforeAnyValidFrameSaySo : State.reset.reading.readingValid = false := by decide

theorem test_witness_ReadsHaveNoSideEffects :
    Kind.rdHumidity.isRead = true ∧ Kind.rdTemperature.isRead = true ∧ Kind.rdStaleness.isRead = true ∧
    Kind.rdDiagnostics.isRead = true ∧ Kind.rdStatus.isRead = true := by decide

theorem test_witness_EveryOtherStatusIsACompleteNoOp :
    exec (.trigReq 0#32) triggering = .next (nextOf (.trigReq 0#32) triggering) ∧
    (nextOf (.trigReq 0#32) triggering).response = some ⟨.rejectedBusy, 0#128⟩ ∧ Status.rejectedBusy ≠ .ok :=
  ⟨exec_nextOf _ _, by decide, by decide⟩

theorem test_witness_OnlyAValidFrameWritesTheReading :
    exec (.fall 1070#32) lastBitStart = .next (nextOf (.fall 1070#32) lastBitStart) ∧
    (nextOf (.fall 1070#32) lastBitStart).reading ≠ lastBitStart.reading := ⟨exec_nextOf _ _, by decide⟩

theorem test_witness_SequencerTransitionsAreComplete :
    (exec (.rise 251001#32) riseStart = .next (nextOf (.rise 251001#32) riseStart) ∧
      (nextOf (.rise 251001#32) riseStart).dec.bitIndex ≠ riseStart.dec.bitIndex) ∧
    (exec (.fall 1070#32) (atBit 126) = .next (nextOf (.fall 1070#32) (atBit 126)) ∧
      (nextOf (.fall 1070#32) (atBit 126)).dec.bitIndex ≠ (atBit 126).dec.bitIndex) :=
  ⟨⟨exec_nextOf _ _, by decide⟩, ⟨exec_nextOf _ _, by decide⟩⟩

theorem test_witness_ReferenceTickAndPoisonHaveOneWriterEach :
    (nextOf (.rise 251001#32) riseStart).dec.lastRisingTick ≠ riseStart.dec.lastRisingTick ∧
    (riseStart.dec.poisoned = true ∧ (nextOf (.rise 251001#32) riseStart).dec.poisoned = false) ∧
    ((atBit 39).dec.poisoned = false ∧ (nextOf (.fall 1200#32) (atBit 39)).dec.poisoned = true) ∧
    exec (.rise 251001#32) riseStart = .next (nextOf (.rise 251001#32) riseStart) ∧
    exec (.fall 1200#32) (atBit 39) = .next (nextOf (.fall 1200#32) (atBit 39)) :=
  ⟨by decide, by decide, by decide, exec_nextOf _ _, exec_nextOf _ _⟩

theorem test_witness_CountersRiseByAtMostOneAndSteerNothing :
    exec (.fall 1200#32) lastBitStart = .next (nextOf (.fall 1200#32) lastBitStart) ∧
    (Instr.fall 1200#32).kind ≠ .rdDiagnostics := ⟨exec_nextOf _ _, by decide⟩

theorem test_witness_RecoveryPhaseTransitionsAreComplete :
    (nextOf (.timeout 0#32) (timeoutStart 5 2#8)).recovery.recPhase ≠ (timeoutStart 5 2#8).recovery.recPhase ∧
    (nextOf (.settleDone 0#32) (inRecovery .offSettle)).recovery.recPhase ≠ (inRecovery .offSettle).recovery.recPhase ∧
    (nextOf (.settleDone 0#32) (inRecovery .onSettle)).recovery.recPhase ≠ (inRecovery .onSettle).recovery.recPhase := by decide

theorem test_witness_MirrorsFollowTheEmittedActions :
    exec (.trigDone 0#32) triggering = .next (nextOf (.trigDone 0#32) triggering) := exec_nextOf _ _

theorem test_witness_AbsentLinesAreNeverCommanded :
    ChannelInv (inRecovery .offSettle) ∧
    exec (.settleDone 0#32) (inRecovery .offSettle) = .next (nextOf (.settleDone 0#32) (inRecovery .offSettle)) ∧
    Action.power true ∈ (nextOf (.settleDone 0#32) (inRecovery .offSettle)).actions ∧
    ChannelInv State.reset ∧ exec (.trigReq 0#32) State.reset = .next (nextOf (.trigReq 0#32) State.reset) ∧
    Action.indicator true ∈ (nextOf (.trigReq 0#32) State.reset).actions :=
  ⟨by constructor <;> decide, exec_nextOf _ _, by decide, by constructor <;> decide, exec_nextOf _ _, by decide⟩

theorem test_witness_ShutdownIsFinalUntilReset :
    { shutDown with pending := [anEvent, noEvent] }.facade.active = false ∧
    ∀ p ∈ { shutDown with pending := [anEvent, noEvent] }.pending, p.rst = false := by decide

theorem test_witness_InputsAndConfigurationAreReadOnly :
    step { State.reset with pending := [anEvent, noEvent] } =
      .next (nextOf (.rdStatus 0#32) { State.reset with pending := [noEvent], wallNow := 7#64 }) := rfl

theorem test_witness_InvariantsHoldAtReset : Config.reference.wf ∧ ({ preambleStart := 0x80#8 } : Config).wf := by decide

theorem test_witness_EveryStepKeepsTheChannelInvariant :
    ChannelInv { timeoutStart 7 2#8 with pending := [{ anEvent with evWord := 0x200000000#36 }] } ∧
    step { timeoutStart 7 2#8 with pending := [{ anEvent with evWord := 0x200000000#36 }] } =
      .next (nextOf (.timeout 0#32) { timeoutStart 7 2#8 with wallNow := 7#64 }) :=
  ⟨by constructor <;> decide, rfl⟩

theorem test_witness_EveryStepKeepsTheFrameInvariant :
    FrameInv { atBit 39 with pending := [{ anEvent with evWord := 0x0000004B0#36 }] } ∧
    step { atBit 39 with pending := [{ anEvent with evWord := 0x0000004B0#36 }] } =
      .next (nextOf (.fall 1200#32) { atBit 39 with wallNow := 7#64 }) :=
  ⟨by constructor <;> decide, rfl⟩

end Sys2Proof.Tests
end

section
/-! The step with `rst` low, one equation per thing the port may present, and the two statements about it
(spec/00_scope.md R9). -/

namespace Sys2Proof.Machine

/-- With nothing pending the step leaves the state as it is. -/
theorem step_of_pending_nil {s : State} (hs : s.pending = []) : step s = .next s := by
  unfold step
  rw [hs]

/-- With `rst` low only `ev_valid` decides: the event's meaning runs where its sample is taken, or the sample is passed
over, its `wall_now` unread. -/
theorem step_of_rst_low {s : State} {p : PortSample} {rest : List PortSample} (hs : s.pending = p :: rest)
    (hr : p.rst = false) :
    step s = if p.evValid then exec (decode p.evWord) (s.takeSample p rest) else .next { s with pending := rest } := by
  unfold step
  rw [hs]
  exact if_neg (by simp [hr])

/-- A presented event runs, decoded, in the state where its sample is taken. -/
theorem step_of_event {s : State} {p : PortSample} {rest : List PortSample} (hs : s.pending = p :: rest)
    (hr : p.rst = false) (hv : p.evValid = true) : step s = exec (decode p.evWord) (s.takeSample p rest) := by
  rw [step_of_rst_low hs hr, if_pos hv]

/-- A sample that presents no event is passed over. -/
theorem step_of_no_event {s : State} {p : PortSample} {rest : List PortSample} (hs : s.pending = p :: rest)
    (hr : p.rst = false) (hv : p.evValid = false) : step s = .next { s with pending := rest } := by
  rw [step_of_rst_low hs hr, if_neg (by simp [hv])]

/-- Settles O6: the step's equation for a presented event, with `takeSample` written out. -/
theorem stepRunsTheDecodedEvent : Obligations.StepRunsTheDecodedEvent := by
  rintro s p rest _ hs hr hv rfl
  exact step_of_event hs hr hv

/-- Settles O7: the step's two idle equations, for an empty list of samples and for a sample without an event. -/
theorem stepWithoutAnEventChangesNothing : Obligations.StepWithoutAnEventChangesNothing :=
  ⟨fun _ hs => step_of_pending_nil hs, fun _ _ _ hs hr hv => step_of_no_event hs hr hv⟩

end Sys2Proof.Machine
end

section
/-! A property of every step from what hardware reset establishes and what taking a sample and an event keep. -/

namespace Sys2Proof.Machine

/-- What the port's samples do not touch, hardware reset establishes again and every event keeps, every step keeps. -/
theorem step_keeps {P : State → Prop}
    (sample : ∀ (s : State) (rest : List PortSample) (w : Wall), P s → P { s with pending := rest, wallNow := w })
    (reset : ∀ (s : State) (rest : List PortSample), P s → P { State.resetWith s.cfg with pending := rest })
    (event : ∀ {i : Instr} {s t : State}, P s → Did s i t → P t) {s t : State} (h : P s) (hstep : step s = .next t) :
    P t := by
  rcases step_cases hstep with ⟨_, rfl⟩ | ⟨p, rest, _, _, rfl⟩ | ⟨p, rest, _, _, _, d⟩ | ⟨p, rest, _, _, _, rfl⟩
  · exact h
  · exact reset s rest h
  · exact event (sample s rest p.wallNow h) d
  · exact sample s rest s.wallNow h

end Sys2Proof.Machine
end

section
/-! The invariant of the recovery, the facade and the Reading: what every event does to it, and so what every step does
(spec/10_state.md R27 to R37, spec/44_recovery_fsm.md R184, spec/45_channel_facade.md R201, R207). -/

namespace Sys2Proof.Machine

/-! ## The decoded temperature -/

/-- The sign flag is masked off, so the magnitude leaves the top bit clear. -/
theorem tmpMag_msb (hi lo : Byte) : (tmpMag hi lo).msb = false := by
  calc (tmpMag hi lo).msb = (hi &&& 0x7F#8).msb := BitVec.msb_append
    _ = (hi.msb && (0x7F#8).msb) := BitVec.msb_and
    _ = false := Bool.and_false _

/-- A sign and a 15-bit magnitude never stand for -32768: its negation is itself, whose top bit no magnitude has. -/
theorem tmpRaw_ne_min (hi lo : Byte) : tmpRaw hi lo ≠ 0x8000#16 := by
  have hm := tmpMag_msb hi lo
  unfold tmpRaw
  intro h
  split at h
  · rw [BitVec.neg_eq_iff_eq_neg.mp h] at hm
    exact absurd hm (by decide)
  · rw [h] at hm
    exact absurd hm (by decide)

/-! ## Events and steps -/

/-- Hardware reset establishes the invariant, in every configuration and whatever is pending. -/
theorem channelInv_hardwareReset (c : Config) (rest : List PortSample) :
    ChannelInv { State.resetWith c with pending := rest } where
  streak := Nat.zero_le _
  poweredIdle := iff_of_true rfl rfl
  recoveryLine := fun h => absurd rfl h
  powerOut := (Bool.and_true _).symm
  indicatorLine := fun _ => rfl
  dataLine := iff_of_false Bool.false_ne_true nofun
  shutDisarmed := fun _ => rfl
  temperature := (by decide : (0#16) ≠ 0x8000#16)
  neverValid := fun _ => ⟨rfl, rfl, rfl⟩

/-- Every event keeps the invariant. Named in each case are the clauses about what the event writes; the others are those
of the state before. -/
theorem did_keeps_channelInv {i : Instr} {s t : State} (h : ChannelInv s) (d : Did s i t) : ChannelInv t := by
  cases d with
  | turnedAway | readOut | shutAgain | roseShort | roseLong | fellHeader | fellPayload | fellIdle => exact { h with }
  | shut => exact { h with shutDisarmed := fun _ => rfl }
  | published tick =>
    have hread : ChannelInv { completedFrame s tick with
        reading := {
          readingValid := true
          humidityTenths := humRaw s.dec.humHi s.dec.humLo
          temperatureTenths := tmpRaw s.dec.tmpHi s.dec.tmpLo
          validSince := s.wallNow } } :=
      { h with
        streak := Nat.zero_le _
        shutDisarmed := fun _ => rfl
        temperature := tmpRaw_ne_min _ _
        neverValid := nofun }
    cases hl : s.cfg.hasIndicatorLine
    · exact { hread with }
    · exact { hread with indicatorLine := fun _ => rfl }
  | mismatched | missedNoLine | missedDropped | timedOutLater =>
    exact { h with streak := Nat.zero_le _, shutDisarmed := fun _ => rfl }
  | missed a ha hw hi hm => exact { h with streak := (Nat.mod_le _ _).trans hm, shutDisarmed := fun _ => rfl }
  | recoveryStarted a ha hw hi hm hp =>
    exact { h with
      streak := Nat.zero_le _
      poweredIdle := by simp
      recoveryLine := fun _ => hp
      powerOut := by simp
      shutDisarmed := fun _ => rfl }
  | powerRestored a hr =>
    have hl : s.cfg.hasPowerLine = true := h.recoveryLine (by simp [hr])
    have hp : s.recovery.powered ≠ true := fun hp => by simp [h.poweredIdle.mp hp] at hr
    exact { h with
      poweredIdle := by simp [hp]
      recoveryLine := fun _ => hl
      powerOut := by simp [hl] }
  | recoveryFinished a hr =>
    exact { h with
      poweredIdle := by simp
      recoveryLine := by simp
      powerOut := by rw [h.powerOut, hr]; rfl }
  | triggered =>
    exact { h with
      indicatorLine := fun hl => by simp [show s.cfg.hasIndicatorLine = false from hl, h.indicatorLine hl]
      dataLine := by simp }
  | released =>
    exact { h with
      dataLine := by simp
      shutDisarmed := fun ha => by simp [show s.facade.active = false from ha, h.shutDisarmed ha] }

/-- Settles O59: reset establishes the invariant and every event keeps it. -/
theorem everyStepKeepsTheChannelInvariant : Obligations.EveryStepKeepsTheChannelInvariant :=
  fun _ _ => step_keeps (fun _ _ _ h => { h with }) (fun s rest _ => channelInv_hardwareReset s.cfg rest)
    did_keeps_channelInv

end Sys2Proof.Machine
end

section
/-! The invariant of the frame assembler: what every event does to it, and so what every step does (spec/10_state.md R22 to
R26, spec/20_memory.md R53, spec/41_frame_assembler.md R120). -/

namespace Sys2Proof.Machine

/-! ## How many bits a byte has received -/

/-- A later index has received no fewer bits of any byte. -/
theorem bitsInByte_mono {i j : Int} (k : Nat) (h : i ≤ j) : bitsInByte i k ≤ bitsInByte j k := by
  unfold bitsInByte
  omega

/-- The pulse at an index of byte `k` is one more bit of it. -/
theorem bitsInByte_succ {i : Int} {k : Nat} (h0 : (8 * k : Nat) ≤ i) (h1 : i < (8 * k + 8 : Nat)) :
    bitsInByte (i + 1) k = bitsInByte i k + 1 := by
  unfold bitsInByte
  omega

/-- One more bit doubles the bound of a byte. -/
theorem appendBit_lt {r : Byte} {n : Nat} (b : Bool) (h : r.toNat < 2 ^ n) : (appendBit r b).toNat < 2 ^ (n + 1) := by
  have hb := b.toNat_lt
  calc (appendBit r b).toNat ≤ 2 * r.toNat + b.toNat := Nat.mod_le _ _
    _ < 2 ^ (n + 1) := by rw [Nat.pow_succ]; omega

/-! ## The five bytes -/

/-- Each byte of a frame is below two to the number of bits it has received when the sequencer is at `i` (R25, R53): the
clauses of `FrameInv` about the bytes, for an index that need not be the one in the record. -/
structure BytesWithin (i : Int) (d : DecodeState) : Prop where
  humHi  : d.humHi.toNat < 2 ^ bitsInByte i 0
  humLo  : d.humLo.toNat < 2 ^ bitsInByte i 1
  tmpHi  : d.tmpHi.toNat < 2 ^ bitsInByte i 2
  tmpLo  : d.tmpLo.toNat < 2 ^ bitsInByte i 3
  cksAcc : d.cksAcc.toNat < 2 ^ bitsInByte i 4

theorem FrameInv.bytesWithin {s : State} (h : FrameInv s) : BytesWithin s.dec.bitIndex.toInt s.dec := { h with }

/-- Zero bytes are within any bound. -/
theorem bytesWithin_afterReset (i : Int) (c : Config) : BytesWithin i (DecodeState.afterReset c) where
  humHi := Nat.two_pow_pos _
  humLo := Nat.two_pow_pos _
  tmpHi := Nat.two_pow_pos _
  tmpLo := Nat.two_pow_pos _
  cksAcc := Nat.two_pow_pos _

/-- The bounds grow with the index. -/
theorem BytesWithin.mono {i j : Int} {d : DecodeState} (h : BytesWithin i d) (hij : i ≤ j) : BytesWithin j d := by
  have grow (k : Nat) : 2 ^ bitsInByte i k ≤ 2 ^ bitsInByte j k := Nat.pow_le_pow_right (by omega) (bitsInByte_mono k hij)
  exact ⟨h.humHi.trans_le (grow 0), h.humLo.trans_le (grow 1), h.tmpHi.trans_le (grow 2), h.tmpLo.trans_le (grow 3),
    h.cksAcc.trans_le (grow 4)⟩

/-- The shift at a payload index takes the bounds to the next index: it doubles the one byte whose bit count grows. -/
theorem BytesWithin.shiftIn {i : Int} {d : DecodeState} (h : BytesWithin i d) (h0 : 0 ≤ i) (h1 : i ≤ 39) (b : Bool) :
    BytesWithin (i + 1) (shiftIn d i.toNat b) := by
  have hm : BytesWithin (i + 1) d := h.mono (by omega)
  have one_more {r : Byte} (k : Nat) (hk0 : (8 * k : Nat) ≤ i) (hk1 : i < (8 * k + 8 : Nat))
      (hr : r.toNat < 2 ^ bitsInByte i k) : (appendBit r b).toNat < 2 ^ bitsInByte (i + 1) k := by
    rw [bitsInByte_succ hk0 hk1]
    exact appendBit_lt b hr
  rcases shiftIn_cases d i.toNat b (by omega) with ⟨_, e⟩ | ⟨_, _, e⟩ | ⟨_, _, e⟩ | ⟨_, _, e⟩ | ⟨_, e⟩ <;> rw [e]
  · exact { hm with humHi := one_more 0 (by omega) (by omega) h.humHi }
  · exact { hm with humLo := one_more 1 (by omega) (by omega) h.humLo }
  · exact { hm with tmpHi := one_more 2 (by omega) (by omega) h.tmpHi }
  · exact { hm with tmpLo := one_more 3 (by omega) (by omega) h.tmpLo }
  · exact { hm with cksAcc := one_more 4 (by omega) (by omega) h.cksAcc }

/-- Index 39 is of the checksum byte. -/
theorem shiftIn_39 (d : DecodeState) (b : Bool) : shiftIn d 39 b = { d with cksAcc := appendBit d.cksAcc b } := by
  rw [← shiftBit_eq_appendBit]
  rfl

/-! ## Events and steps -/

/-- A frame reset establishes the invariant, whatever the reference tick. -/
theorem frameInv_afterReset (s : State) (tick : Tick) (hwf : s.cfg.wf) :
    FrameInv { s with dec := { DecodeState.afterReset s.cfg with lastRisingTick := tick } } :=
  { bytesWithin_afterReset s.cfg.preambleStart.toInt s.cfg with
    config := hwf
    index := le_refl _
    poisoned := nofun }

/-- Hardware reset establishes the invariant in a configuration whose PREAMBLE_START is negative. -/
theorem frameInv_hardwareReset (c : Config) (rest : List PortSample) (hwf : c.wf) :
    FrameInv { State.resetWith c with pending := rest } :=
  { frameInv_afterReset (State.resetWith c) 0#32 hwf with }

/-- A falling edge keeps the invariant if it keeps the bounds of the bytes and poisons on a payload bit only: the index
advances, so it stays at or above PREAMBLE_START, and positive where a payload bit was received. -/
theorem frameInv_of_advance {s t : State} (h : FrameInv s) (hc : t.cfg = s.cfg)
    (hi : t.dec.bitIndex = advanceIndex s.dec.bitIndex) (hb : BytesWithin t.dec.bitIndex.toInt t.dec)
    (hp : t.dec.poisoned = true → s.cfg.poisonOnHeader = false → s.dec.poisoned = true ∨ 0 ≤ s.dec.bitIndex.toInt) :
    FrameInv t := by
  have hle : s.dec.bitIndex.toInt ≤ 127 := (toInt8_range s.dec.bitIndex).2
  have hnext : t.dec.bitIndex.toInt = min (s.dec.bitIndex.toInt + 1) 127 := by rw [hi, advanceIndex_toInt]
  have hindex := h.index
  refine { hb with config := ?_, index := ?_, poisoned := ?_ }
  · rw [hc]
    exact h.config
  · rw [hc]
    omega
  · intro ht hcfg
    rw [hc] at hcfg
    rcases hp ht hcfg with hs | h0
    · have := h.poisoned hs hcfg
      omega
    · omega

/-- The bounds of the bytes at the index after the advance, for bytes that the falling edge leaves alone. -/
theorem FrameInv.bytesWithin_advance {s : State} (h : FrameInv s) :
    BytesWithin (advanceIndex s.dec.bitIndex).toInt s.dec := by
  have hle : s.dec.bitIndex.toInt ≤ 127 := (toInt8_range s.dec.bitIndex).2
  exact h.bytesWithin.mono (by rw [advanceIndex_toInt]; omega)

/-- The bounds of the bytes at the index after the advance, for the shift at a payload index. -/
theorem FrameInv.bytesWithin_shiftIn {s : State} (h : FrameInv s) (h0 : 0 ≤ s.dec.bitIndex.toInt)
    (h1 : s.dec.bitIndex.toInt ≤ 39) (p b : Bool) :
    BytesWithin (advanceIndex s.dec.bitIndex).toInt
      (shiftIn { s.dec with poisoned := p } s.dec.bitIndex.toInt.toNat b) := by
  have hs : BytesWithin s.dec.bitIndex.toInt { s.dec with poisoned := p } := { h with }
  have hnext : (advanceIndex s.dec.bitIndex).toInt = s.dec.bitIndex.toInt + 1 := by rw [advanceIndex_toInt]; omega
  rw [hnext]
  exact hs.shiftIn h0 h1 b

/-- The last payload bit is shifted into the checksum byte, so the completed frame satisfies the invariant. -/
theorem completedFrame_frameInv {s : State} (h : FrameInv s) (tick : Tick) (hi : s.dec.bitIndex.toInt = 39) :
    FrameInv (completedFrame s tick) := by
  have h40 : advanceIndex s.dec.bitIndex = 40#8 := by rw [advanceIndex_eq, hi]; rfl
  have hb := h.bytesWithin_shiftIn (by omega) (by omega) s.dec.poisoned (decide (50 ≤ pulseWidth s tick))
  rw [h40, hi, show (39 : Int).toNat = 39 from rfl, shiftIn_39] at hb
  exact frameInv_of_advance h rfl h40.symm { hb with } fun _ _ => .inr (by omega)

/-- Every event keeps the invariant. -/
theorem did_keeps_frameInv {i : Instr} {s t : State} (h : FrameInv s) (d : Did s i t) : FrameInv t := by
  cases d with
  | turnedAway | readOut | shutAgain | shut | roseShort | missed | missedNoLine | missedDropped | recoveryStarted
  | timedOutLater | powerRestored | recoveryFinished | triggered | released => exact { h with }
  | roseLong tick => exact { frameInv_afterReset s tick h.config with }
  | fellHeader tick ha hi =>
    exact frameInv_of_advance h rfl rfl { h.bytesWithin_advance with } fun hp hc => .inl (by simpa [hc] using hp)
  | fellIdle tick ha hi => exact frameInv_of_advance h rfl rfl { h.bytesWithin_advance with } fun hp _ => .inl hp
  | fellPayload tick ha h0 h1 =>
    exact frameInv_of_advance h rfl rfl { h.bytesWithin_shiftIn h0 h1.le _ _ with } fun _ _ => .inr h0
  | published tick ha hi => exact { completedFrame_frameInv h tick hi with }
  | mismatched tick ha hi => exact { completedFrame_frameInv h tick hi with }

/-- Settles O60: reset establishes the invariant, for the configuration stays negative at PREAMBLE_START, and every event
keeps it. -/
theorem everyStepKeepsTheFrameInvariant : Obligations.EveryStepKeepsTheFrameInvariant :=
  fun _ _ => step_keeps (fun _ _ _ h => { h with }) (fun s rest h => frameInv_hardwareReset s.cfg rest h.config)
    did_keeps_frameInv

end Sys2Proof.Machine
end

section
/-! Single writers: what changes the Reading, the sequencer, the reference tick and the poison mark, over all events
(spec/10_state.md R23 to R28, spec/41_frame_assembler.md R120). -/

namespace Sys2Proof.Machine

/-- The validity of a frame in plain arithmetic (R140). -/
theorem frameValid_iff (d : DecodeState) : frameValid d = true ↔ sumMatches d d.cksAcc ∧ d.poisoned = false := by
  have hsum : (frameSum d).toNat = (d.humHi.toNat + d.humLo.toNat + d.tmpHi.toNat + d.tmpLo.toNat) % 256 := by
    simp only [frameSum, BitVec.toNat_add]
    omega
  rw [frameValid, Bool.and_eq_true, beq_iff_eq, Bool.not_eq_true', sumMatches, ← hsum, BitVec.toNat_inj]

/-- An advance that changes the index adds one, from below the saturation (R116). -/
theorem advanceIndex_ne {i : BitVec 8} (h : advanceIndex i ≠ i) : (advanceIndex i).toInt = i.toInt + 1 ∧ i.toInt ≤ 126 := by
  have hle : i.toInt ≤ 127 := (toInt8_range i).2
  have hnext := advanceIndex_toInt i
  have hne : (advanceIndex i).toInt ≠ i.toInt := fun e => h (BitVec.eq_of_toInt_eq e)
  omega

/-- Settles O49: only the case of a published frame writes the Reading, and it does so on a valid frame. -/
theorem onlyAValidFrameWritesTheReading : Obligations.OnlyAValidFrameWritesTheReading := by
  intro i s t h hne
  cases did_of_exec h with
  | published tick ha hi hv =>
    obtain ⟨hsum, hpoison⟩ := (frameValid_iff _).mp hv
    exact ⟨⟨tick, rfl⟩, ha, hi, hsum, hpoison, rfl⟩
  | _ => exact absurd rfl hne

/-- What an event does to the sequencer: nothing, or a RISE after a long gap sets it to PREAMBLE_START, or an accepted FALL
advances it, on whatever bit it falls (R23, R120). -/
theorem did_bitIndex {i : Instr} {s t : State} (d : Did s i t) :
    t.dec.bitIndex = s.dec.bitIndex ∨
    (∃ tick, i = .rise tick ∧ s.facade.active = true ∧ 250000 < ticksBetween s.dec.lastRisingTick tick ∧
      t.dec.bitIndex = s.cfg.preambleStart) ∨
    (∃ tick, i = .fall tick ∧ s.facade.active = true ∧ t.dec.bitIndex = advanceIndex s.dec.bitIndex) := by
  cases d with
  | roseLong tick ha hg => exact .inr (.inl ⟨tick, rfl, ha, hg, rfl⟩)
  | fellHeader tick ha | fellPayload tick ha | fellIdle tick ha => exact .inr (.inr ⟨tick, rfl, ha, rfl⟩)
  | published tick ha hi | mismatched tick ha hi =>
    exact .inr (.inr ⟨tick, rfl, ha, by rw [advanceIndex_eq, hi]; rfl⟩)
  | _ => exact .inl rfl

/-- Settles O50: an advance that changes the index adds one. -/
theorem sequencerTransitionsAreComplete : Obligations.SequencerTransitionsAreComplete := by
  intro i s t h hne
  rcases did_bitIndex (did_of_exec h) with e | ⟨tick, hi, ha, hg, e⟩ | ⟨tick, hi, ha, e⟩
  · exact absurd e hne
  · exact ⟨ha, .inl ⟨tick, hi, hg, e⟩⟩
  · rw [e] at hne ⊢
    exact ⟨ha, .inr ⟨tick, hi, advanceIndex_ne hne⟩⟩

/-- The reference tick is written by an accepted RISE only, which writes its own tick (R24). -/
theorem did_lastRisingTick {i : Instr} {s t : State} (d : Did s i t) :
    t.dec.lastRisingTick = s.dec.lastRisingTick ∨ i = .rise t.dec.lastRisingTick ∧ s.facade.active = true := by
  cases d with
  | roseShort tick ha | roseLong tick ha => exact .inr ⟨rfl, ha⟩
  | fellPayload => exact .inl (shiftIn_keeps _ _ _).2.1
  | _ => exact .inl rfl

/-- What an event does to the poison mark: nothing, or a RISE after a long gap clears it, or a FALL on a bit of the frame
adds its long mark, on a header bit only under POISON_ON_HEADER (R26, D5, D6). -/
theorem did_poisoned {i : Instr} {s t : State} (d : Did s i t) :
    t.dec.poisoned = s.dec.poisoned ∨
    (∃ tick, i = .rise tick ∧ s.facade.active = true ∧ 250000 < ticksBetween s.dec.lastRisingTick tick ∧
      t.dec.poisoned = false) ∨
    (∃ tick, i = .fall tick ∧ s.facade.active = true ∧ s.dec.bitIndex.toInt ≤ 39 ∧
      (0 ≤ s.dec.bitIndex.toInt ∨ s.cfg.poisonOnHeader = true) ∧
      t.dec.poisoned = (s.dec.poisoned || decide (200 ≤ pulseWidth s tick))) := by
  cases d with
  | roseLong tick ha hg => exact .inr (.inl ⟨tick, rfl, ha, hg, rfl⟩)
  | fellHeader tick ha hi =>
    cases hc : s.cfg.poisonOnHeader
    · exact .inl (by simp)
    · exact .inr (.inr ⟨tick, rfl, ha, by omega, .inr rfl, by simp⟩)
  | fellPayload tick ha h0 h1 => exact .inr (.inr ⟨tick, rfl, ha, h1.le, .inl h0, (shiftIn_keeps _ _ _).2.2⟩)
  | published tick ha hi | mismatched tick ha hi => exact .inr (.inr ⟨tick, rfl, ha, hi.le, .inl (by omega), rfl⟩)
  | _ => exact .inl rfl

/-- Settles O51: in each clause only one of the listed writers can have made the change. -/
theorem referenceTickAndPoisonHaveOneWriterEach : Obligations.ReferenceTickAndPoisonHaveOneWriterEach := by
  intro i s t h
  have d := did_of_exec h
  refine ⟨fun hne => (did_lastRisingTick d).resolve_left hne, fun hs ht => ?_, fun hs ht => ?_⟩
  · rcases did_poisoned d with e | ⟨tick, hi, ha, hg, _⟩ | ⟨tick, _, _, _, _, e⟩
    · simp [e, hs] at ht
    · exact ⟨tick, hi, ha, hg⟩
    · simp [e, hs] at ht
  · rcases did_poisoned d with e | ⟨tick, _, _, _, e⟩ | ⟨tick, hi, ha, h39, hbit, e⟩
    · simp [e, hs] at ht
    · simp [e] at ht
    · exact ⟨tick, hi, ha, by simpa [e, hs] using ht, h39, hbit⟩

end Sys2Proof.Machine
end

section
/-! The error counters rise by at most one, and neither they nor the pin mirrors steer anything (spec/10_state.md R29, R30,
R37). -/

namespace Sys2Proof.Machine

/-! ## Counters -/

/-- `c'` is `c` or one more. -/
def RisesAtMostOne (c c' : BitVec 32) : Prop := c.toNat ≤ c'.toNat ∧ c'.toNat ≤ c.toNat + 1

theorem risesAtMostOne_refl (c : BitVec 32) : RisesAtMostOne c c := ⟨le_refl _, Nat.le_succ _⟩

theorem risesAtMostOne_satInc32 (c : BitVec 32) : RisesAtMostOne c (satInc32 c) := by
  have hc := c.isLt
  have hn : (satInc32 c).toNat = min (c.toNat + 1) (2 ^ 32 - 1) := by
    rw [satInc32_eq_countUp, countUp, BitVec.toNat_ofNat]
    omega
  unfold RisesAtMostOne
  omega

/-- All four counters. -/
structure CountersRise (e e' : ErrorCounters) : Prop where
  badChecksum    : RisesAtMostOne e.badChecksum e'.badChecksum
  shortMessage   : RisesAtMostOne e.shortMessage e'.shortMessage
  missingMessage : RisesAtMostOne e.missingMessage e'.missingMessage
  sensorReset    : RisesAtMostOne e.sensorReset e'.sensorReset

theorem countersRise_refl (e : ErrorCounters) : CountersRise e e :=
  ⟨risesAtMostOne_refl _, risesAtMostOne_refl _, risesAtMostOne_refl _, risesAtMostOne_refl _⟩

/-- No event counts a condition twice. -/
theorem did_countersRise {i : Instr} {s t : State} (d : Did s i t) : CountersRise s.errors t.errors := by
  have hr := countersRise_refl s.errors
  have up := risesAtMostOne_satInc32
  cases d with
  | mismatched => exact { hr with badChecksum := up _ }
  | missed | missedDropped | recoveryStarted => exact { hr with missingMessage := up _ }
  | missedNoLine => exact { hr with missingMessage := up _, sensorReset := up _ }
  | timedOutLater =>
    by_cases h39 : s.dec.bitIndex.toInt < 39
    · simp only [h39]
      exact { hr with shortMessage := up _ }
    · simp only [h39]
      exact hr
  | recoveryFinished => exact { hr with sensorReset := up _ }
  | _ => exact hr

/-! ## Noninterference: states -/

/-- The same state with other counters and other pin levels. -/
def State.withOutputs (s : State) (e : ErrorCounters) (p q d : Bool) : State :=
  { s with errors := e, facade := { s.facade with powerOut := p, indicatorOut := q, dataDriveLow := d } }

/-- The two states are the same but for the counters and the pin levels. -/
def SameButOutputs (t t' : State) : Prop := ∃ e p q d, t' = t.withOutputs e p q d

theorem sameButOutputs_withOutputs (t : State) (e : ErrorCounters) (p q d : Bool) :
    SameButOutputs t (t.withOutputs e p q d) := ⟨e, p, q, d, rfl⟩

/-- A test that both sides make alike. In its uses below the test reads neither a counter nor a pin level, so that it is
one and the same on both sides. -/
theorem SameButOutputs.ite {c : Prop} [Decidable c] {t t' u u' : State} (ht : SameButOutputs t t')
    (hu : SameButOutputs u u') : SameButOutputs (if c then t else u) (if c then t' else u') := by
  split
  · exact ht
  · exact hu

/-- What an operation does to a state and to its variants, it does to any two related states. -/
theorem SameButOutputs.map {t t' : State} (h : SameButOutputs t t') {f : State → State}
    (hf : ∀ (u : State) (e : ErrorCounters) (p q d : Bool), SameButOutputs (f u) (f (u.withOutputs e p q d))) :
    SameButOutputs (f t) (f t') := by
  obtain ⟨e, p, q, d, rfl⟩ := h
  exact hf t e p q d

section
variable {t t' : State} (h : SameButOutputs t t')
include h

theorem SameButOutputs.beginStep : SameButOutputs t.beginStep t'.beginStep := h.map fun _ _ _ _ _ => ⟨_, _, _, _, rfl⟩

theorem SameButOutputs.respond (st : Status) (x : Data) : SameButOutputs (t.respond st x) (t'.respond st x) :=
  h.map (f := fun u => u.respond st x) fun _ _ _ _ _ => ⟨_, _, _, _, rfl⟩

theorem SameButOutputs.turnAway (st : Status) : SameButOutputs (t.turnAway st) (t'.turnAway st) :=
  h.beginStep.respond st _

/-- An action writes its mirror alike, whatever the other mirrors are. -/
theorem SameButOutputs.command (a : Action) : SameButOutputs (t.command a) (t'.command a) :=
  h.map (f := fun u => u.command a) fun _ _ _ _ _ => by cases a <;> exact ⟨_, _, _, _, rfl⟩

/-- A timer started for a duration of the configuration. -/
theorem SameButOutputs.startTimer (id : TimerId) (f : Config → BitVec 31) :
    SameButOutputs (t.command (.timerStart id (f t.cfg))) (t'.command (.timerStart id (f t'.cfg))) :=
  h.map (f := fun u => u.command (.timerStart id (f u.cfg))) fun _ _ _ _ _ => ⟨_, _, _, _, rfl⟩

theorem SameButOutputs.commandIndicator (b : Bool) : SameButOutputs (t.commandIndicator b) (t'.commandIndicator b) :=
  h.map (f := fun u => u.commandIndicator b) fun u e p q d =>
    have hu := sameButOutputs_withOutputs u e p q d
    .ite (hu.command _) hu

theorem SameButOutputs.setTrigPhase (x : TrigPhase) :
    SameButOutputs { t with facade := { t.facade with trigPhase := x } }
      { t' with facade := { t'.facade with trigPhase := x } } :=
  h.map (f := fun u => { u with facade := { u.facade with trigPhase := x } }) fun _ _ _ _ _ => ⟨_, _, _, _, rfl⟩

/-- Whether a recovery starts is decided by the power line and the phase. -/
theorem SameButOutputs.requestRecovery : SameButOutputs t.requestRecovery t'.requestRecovery :=
  h.map fun _ _ _ _ _ => .ite ⟨_, _, _, _, rfl⟩ (.ite ⟨_, _, _, _, rfl⟩ ⟨_, _, _, _, rfl⟩)

theorem SameButOutputs.restorePower : SameButOutputs t.restorePower t'.restorePower :=
  h.map fun _ _ _ _ _ => ⟨_, _, _, _, rfl⟩

theorem SameButOutputs.finishRecovery : SameButOutputs t.finishRecovery t'.finishRecovery :=
  h.map fun _ _ _ _ _ => ⟨_, _, _, _, rfl⟩

theorem SameButOutputs.clearMissing : SameButOutputs t.clearMissing t'.clearMissing :=
  h.map fun _ _ _ _ _ => ⟨_, _, _, _, rfl⟩

/-- The miss is counted in a counter and in the streak; the streak alone decides what follows. -/
theorem SameButOutputs.missedMessage : SameButOutputs t.missedMessage t'.missedMessage :=
  h.map fun u e p q d =>
    have hcounted : SameButOutputs
        { u with errors := { u.errors with missingMessage := satInc32 u.errors.missingMessage } }
        { u.withOutputs e p q d with errors := { e with missingMessage := satInc32 e.missingMessage } } :=
      ⟨_, _, _, _, rfl⟩
    .ite hcounted.clearMissing.requestRecovery ⟨_, _, _, _, rfl⟩

theorem SameButOutputs.raise (c : Condition) : SameButOutputs (t.raise c) (t'.raise c) := by
  cases c with
  | invalidPulseWidth | checksumMismatch | shortMessage =>
    exact h.map (f := (State.raise · _)) fun _ _ _ _ _ => ⟨_, _, _, _, rfl⟩
  | missingMessage => exact h.missedMessage
  | sensorUnresponsive => exact h.clearMissing.requestRecovery
  | triggerWhileUnpowered => exact h.respond _ _

theorem SameButOutputs.publish : SameButOutputs t.publish t'.publish :=
  h.map fun _ _ _ _ _ => SameButOutputs.commandIndicator ⟨_, _, _, _, rfl⟩ false

/-- The validity of a frame is decided by the Decode State. -/
theorem SameButOutputs.validateAndPublish : SameButOutputs t.validateAndPublish t'.validateAndPublish :=
  h.map fun u e p q d =>
    have hu := sameButOutputs_withOutputs u e p q d
    .ite hu.publish (hu.raise .checksumMismatch)

theorem SameButOutputs.completeFrame : SameButOutputs t.completeFrame t'.completeFrame :=
  (h.command .wdDisarm).clearMissing.validateAndPublish

theorem SameButOutputs.shiftIn (i : Nat) (b : Bool) :
    SameButOutputs { t with dec := shiftIn t.dec i b } { t' with dec := shiftIn t'.dec i b } :=
  h.map (f := fun u => { u with dec := Machine.shiftIn u.dec i b }) fun _ _ _ _ _ => ⟨_, _, _, _, rfl⟩

theorem SameButOutputs.payloadEdge (i : Nat) (w : Tick) : SameButOutputs (t.payloadEdge i w) (t'.payloadEdge i w) :=
  have hpoison : SameButOutputs (if (classify w).long then t.raise .invalidPulseWidth else t)
      (if (classify w).long then t'.raise .invalidPulseWidth else t') := .ite (h.raise _) h
  have hshift := hpoison.shiftIn i (classify w).bit
  .ite hshift.completeFrame hshift

theorem SameButOutputs.headerEdge (w : Tick) : SameButOutputs (t.headerEdge w) (t'.headerEdge w) :=
  h.map (f := fun u => u.headerEdge w) fun u e p q d =>
    have hu := sameButOutputs_withOutputs u e p q d
    .ite (hu.raise _) hu

theorem SameButOutputs.advance : SameButOutputs t.advance t'.advance := h.map fun _ _ _ _ _ => ⟨_, _, _, _, rfl⟩

end

/-! ## Noninterference: events -/

/-- Both outcomes are next states, the same but for the counters and the pin levels. -/
def SameOutcome (o o' : Host.Outcome State Fault Refusal) : Prop :=
  ∃ t t', o = .next t ∧ o' = .next t' ∧ SameButOutputs t t'

theorem SameButOutputs.next {t t' : State} (h : SameButOutputs t t') : SameOutcome (.next t) (.next t') :=
  ⟨t, t', rfl, rfl, h⟩

/-- A test that both sides make alike, as for states. -/
theorem SameOutcome.ite {c : Prop} [Decidable c] {o o' u u' : Host.Outcome State Fault Refusal} (ho : SameOutcome o o')
    (hu : SameOutcome u u') : SameOutcome (if c then o else u) (if c then o' else u') := by
  split
  · exact ho
  · exact hu

section
variable (s : State) (e : ErrorCounters) (p q d : Bool)

theorem execRise_same (tick : Tick) : SameOutcome (execRise tick s) (execRise tick (s.withOutputs e p q d)) := by
  have h := sameButOutputs_withOutputs s e p q d
  exact .ite (h.turnAway _).next (SameButOutputs.ite ⟨_, _, _, _, rfl⟩ ⟨_, _, _, _, rfl⟩).next

theorem execFall_same (tick : Tick) : SameOutcome (execFall tick s) (execFall tick (s.withOutputs e p q d)) := by
  have h := sameButOutputs_withOutputs s e p q d
  have hb := h.beginStep
  exact .ite (h.turnAway _).next
    (SameButOutputs.ite (hb.headerEdge _) (.ite (hb.payloadEdge _ _) hb)).advance.next

theorem execTimeout_same (a : BitVec 32) : SameOutcome (execTimeout a s) (execTimeout a (s.withOutputs e p q d)) := by
  have h := sameButOutputs_withOutputs s e p q d
  have hb := h.beginStep.command .wdDisarm
  exact .ite (h.turnAway _).next
    (SameButOutputs.ite ((hb.raise .missingMessage).respond _ _)
      (.ite ((hb.raise .shortMessage).respond _ _) (hb.clearMissing.respond _ _))).next

theorem execSettleDone_same (a : BitVec 32) :
    SameOutcome (execSettleDone a s) (execSettleDone a (s.withOutputs e p q d)) := by
  have h := sameButOutputs_withOutputs s e p q d
  have hr : (s.withOutputs e p q d).recovery.recPhase = s.recovery.recPhase := rfl
  unfold execSettleDone
  rw [hr]
  cases s.recovery.recPhase with
  | idle => exact (h.turnAway _).next
  | offSettle => exact h.beginStep.restorePower.next
  | onSettle => exact h.beginStep.finishRecovery.next

theorem execTrigReq_same (a : BitVec 32) : SameOutcome (execTrigReq a s) (execTrigReq a (s.withOutputs e p q d)) := by
  have h := sameButOutputs_withOutputs s e p q d
  have hstart := ((h.beginStep.commandIndicator true).command .dataLow).startTimer .trig Config.triggerLowMs
  exact .ite (h.turnAway _).next (.ite (h.beginStep.raise .triggerWhileUnpowered).next
    (.ite (h.turnAway _).next (hstart.setTrigPhase .asserting).next))

theorem execTrigDone_same (a : BitVec 32) : SameOutcome (execTrigDone a s) (execTrigDone a (s.withOutputs e p q d)) := by
  have h := sameButOutputs_withOutputs s e p q d
  have hb := h.beginStep.command .dataInput
  exact .ite (h.turnAway _).next ((SameButOutputs.ite (hb.command _) hb).setTrigPhase .idle).next

theorem execShutdown_same (a : BitVec 32) : SameOutcome (execShutdown a s) (execShutdown a (s.withOutputs e p q d)) := by
  have h := sameButOutputs_withOutputs s e p q d
  have hb := h.beginStep
  exact (SameButOutputs.ite ((hb.command .wdDisarm).command .unsubscribe) hb).next

/-- Only RD_DIAGNOSTICS reads a counter, and no event reads a pin level. -/
theorem exec_same (i : Instr) (hk : i.kind ≠ .rdDiagnostics) :
    SameOutcome (exec i s) (exec i (s.withOutputs e p q d)) := by
  have h := sameButOutputs_withOutputs s e p q d
  cases i with
  | fall tick => exact execFall_same s e p q d tick
  | rise tick => exact execRise_same s e p q d tick
  | timeout a => exact execTimeout_same s e p q d a
  | settleDone a => exact execSettleDone_same s e p q d a
  | trigReq a => exact execTrigReq_same s e p q d a
  | trigDone a => exact execTrigDone_same s e p q d a
  | shutdown a => exact execShutdown_same s e p q d a
  | rdHumidity | rdTemperature | rdStaleness | rdStatus => exact SameButOutputs.next ⟨e, p, q, d, rfl⟩
  | rdDiagnostics => exact absurd rfl hk
  | reserved7 | reservedD | reservedE | reservedF => exact (h.turnAway .illegalEvent).next

end

/-- Settles O52: the counters by what each event counts; the rest by running the event on both states. RD_DIAGNOSTICS
changes nothing but the response. -/
theorem countersRiseByAtMostOneAndSteerNothing : Obligations.CountersRiseByAtMostOneAndSteerNothing := by
  refine ⟨fun i s t h => ?_, fun i s t e p q d h => ?_⟩
  · obtain ⟨h1, h2, h3, h4⟩ := did_countersRise (did_of_exec h)
    exact ⟨h1, h2, h3, h4⟩
  · by_cases hk : i.kind = .rdDiagnostics
    · cases i with
      | rdDiagnostics a =>
        cases h
        exact ⟨_, rfl, rfl, rfl, rfl, rfl, rfl, rfl, rfl, rfl, fun hne => absurd rfl hne⟩
      | _ => cases hk
    · obtain ⟨t₀, t', h₀, h', e', p', q', d', rfl⟩ := exec_same s e p q d i hk
      rw [h] at h₀
      cases h₀
      exact ⟨_, h', rfl, rfl, rfl, rfl, rfl, rfl, rfl, rfl, fun _ => rfl⟩

end Sys2Proof.Machine
end

section
/-! The actions of an event: the mirrors they command, and the lines they need (spec/10_state.md R35 to R37,
spec/30_encoding.md R76). -/

namespace Sys2Proof.Machine

/-- The facade after an event is the one before with the event's actions mirrored, the trigger phase apart (R76). -/
theorem did_facade {i : Instr} {s t : State} (d : Did s i t) :
    t.facade = { mirrorsAfter s.facade t.actions with trigPhase := t.facade.trigPhase } := by
  cases d with
  | published | triggered => cases hl : s.cfg.hasIndicatorLine <;> rfl
  | released => cases ha : s.facade.active <;> rfl
  | _ => rfl

/-- Settles O54. -/
theorem mirrorsFollowTheEmittedActions : Obligations.MirrorsFollowTheEmittedActions :=
  fun _ _ _ h => did_facade (did_of_exec h)

/-- The power line is commanded only where a recovery starts, which needs the line, or goes on. -/
theorem did_power {i : Instr} {s t : State} (d : Did s i t) {b : Bool} (hb : .power b ∈ t.actions) :
    s.cfg.hasPowerLine = true ∨ s.recovery.recPhase = .offSettle := by
  cases d with
  | recoveryStarted a ha hw hi hm hp => exact .inl hp
  | powerRestored a hr => exact .inr hr
  | published | triggered => cases hl : s.cfg.hasIndicatorLine <;> simp [hl] at hb
  | released => cases ha : s.facade.active <;> simp [ha] at hb
  | _ => simp [answeredOnly, completedFrame, countedMiss] at hb

/-- The indicator line is commanded only where the channel has one. -/
theorem did_indicator {i : Instr} {s t : State} (d : Did s i t) {b : Bool} (hb : .indicator b ∈ t.actions) :
    s.cfg.hasIndicatorLine = true := by
  cases hl : s.cfg.hasIndicatorLine
  · cases d with
    | released => cases ha : s.facade.active <;> simp [ha] at hb
    | _ => simp [hl, answeredOnly, completedFrame, countedMiss] at hb
  · rfl

/-- Settles O55: by the invariant a recovery runs only where there is a power line. -/
theorem absentLinesAreNeverCommanded : Obligations.AbsentLinesAreNeverCommanded := by
  intro i s t hinv h
  have d := did_of_exec h
  refine ⟨fun b hb => ?_, fun b hb => did_indicator d hb⟩
  rcases did_power d hb with hp | hr
  · exact hp
  · exact hinv.recoveryLine (by simp [hr])

end Sys2Proof.Machine
end

section
/-! After shutdown: what no event but hardware reset can change (spec/10_state.md R36, spec/70_reset_and_hazards.md R293). -/

namespace Sys2Proof.Machine

/-! ## Runs answer -/

/-- With `rst` high the step is hardware reset, whatever the port presents. -/
theorem step_of_rst_high {s : State} {p : PortSample} {rest : List PortSample} (hs : s.pending = p :: rest)
    (hr : p.rst = true) : step s = .next (s.hardwareReset rest) := by
  unfold step
  rw [hs]
  exact if_pos hr

/-- Every step answers a next state. -/
theorem step_answers (s : State) : ∃ t, step s = .next t := by
  cases hs : s.pending with
  | nil => exact ⟨s, step_of_pending_nil hs⟩
  | cons p rest =>
    cases hr : p.rst
    · cases hv : p.evValid
      · exact ⟨_, step_of_no_event hs hr hv⟩
      · obtain ⟨t, ht, _⟩ := exec_did (decode p.evWord) (s.takeSample p rest)
        exact ⟨t, (step_of_event hs hr hv).trans ht⟩
    · exact ⟨_, step_of_rst_high hs hr⟩

/-- Every run answers a next state. -/
theorem run_answers (k : Nat) (s : State) : ∃ t, Host.Core.run Sys2Proof.core k s = .next t := by
  induction k generalizing s with
  | zero => exact ⟨s, Host.Core.run.eq_1 _ _⟩
  | succ k ih =>
    obtain ⟨u, hu⟩ := step_answers s
    rw [run_succ k hu]
    exact ih u

/-! ## The inactive channel -/

/-- `t` is inactive as `s` was, with no hardware reset to come, and nothing of what edges, timeouts and triggers write has
changed since `s`. -/
structure ShutSince (s t : State) : Prop where
  active       : t.facade.active = false
  noReset      : ∀ p ∈ t.pending, p.rst = false
  dec          : t.dec = s.dec
  reading      : t.reading = s.reading
  streak       : t.recovery.consecutiveMissing = s.recovery.consecutiveMissing
  badChecksum  : t.errors.badChecksum = s.errors.badChecksum
  shortMessage : t.errors.shortMessage = s.errors.shortMessage
  missing      : t.errors.missingMessage = s.errors.missingMessage

/-- The events that write any of it are accepted by an active channel only. -/
theorem did_keeps_shutSince {i : Instr} {s u t : State} (h : ShutSince s u) (d : Did u i t) : ShutSince s t := by
  cases d with
  | turnedAway | readOut | shutAgain | powerRestored | recoveryFinished | released => exact { h with }
  | _ =>
    rename u.facade.active = true => ha
    exact absurd (h.active.symm.trans ha) Bool.false_ne_true

/-- A sample that a step takes was pending, so no hardware reset is among those left. -/
theorem ShutSince.sample {s u : State} {p : PortSample} {rest : List PortSample} (h : ShutSince s u)
    (hp : u.pending = p :: rest) (w : Wall) : ShutSince s { u with pending := rest, wallNow := w } :=
  { h with noReset := fun q hq => h.noReset q (by rw [hp]; exact List.mem_cons_of_mem p hq) }

/-- Only hardware reset ends a shutdown, and there is none to come. -/
theorem step_keeps_shutSince (s u t : State) (h : ShutSince s u) (hstep : step u = .next t) : ShutSince s t := by
  rcases step_cases hstep with ⟨_, rfl⟩ | ⟨p, rest, hp, hr, _⟩ | ⟨p, rest, hp, _, _, d⟩ | ⟨p, rest, hp, _, _, rfl⟩
  · exact h
  · have hlow : p.rst = false := h.noReset p (by simp [hp])
    exact absurd (hlow.symm.trans hr) Bool.false_ne_true
  · exact did_keeps_shutSince (h.sample hp p.wallNow) d
  · exact h.sample hp u.wallNow

/-- Settles O56: the run answers, and each of its steps keeps what shutdown left. -/
theorem shutdownIsFinalUntilReset : Obligations.ShutdownIsFinalUntilReset := by
  intro s k ha hrst
  obtain ⟨t, ht⟩ := run_answers k s
  have hs : ShutSince s s := ⟨ha, hrst, rfl, rfl, rfl, rfl, rfl, rfl⟩
  have h : ShutSince s t := run_keeps (step_keeps_shutSince s) k s t hs ht
  exact ⟨t, ht, h.active, h.dec, h.reading, h.streak, h.badChecksum, h.shortMessage, h.missing⟩

end Sys2Proof.Machine
end

section
/-! Reset and the names of the assembler's states (spec/10_state.md R39, R40). -/

namespace Sys2Proof.Machine

/-- Settles O8: each field of `State.resetWith`. -/
theorem resetLeavesTheRecordOfTheTable : Obligations.ResetLeavesTheRecordOfTheTable :=
  ⟨rfl, fun _ => ⟨rfl, rfl, rfl, rfl, rfl, rfl, rfl, rfl, rfl, rfl⟩⟩

/-- Settles O23: the ranges are disjoint and cover every index, so on each branch one name fits and no other. -/
theorem stateNamesFollowTheIndex : Obligations.StateNamesFollowTheIndex := by
  intro i
  unfold assemblerState frameBits
  split_ifs <;> simp <;> omega

/-- Settles O58: hardware reset establishes both invariants, here with nothing pending. -/
theorem invariantsHoldAtReset : Obligations.InvariantsHoldAtReset := by
  have hold (c : Config) (hwf : c.wf) : ChannelInv (State.resetWith c) ∧ FrameInv (State.resetWith c) :=
    ⟨channelInv_hardwareReset c [], frameInv_hardwareReset c [] hwf⟩
  obtain ⟨hchannel, hframe⟩ := hold Config.reference (by decide)
  exact ⟨hchannel, hframe, hold⟩

end Sys2Proof.Machine
end

section
/-! The received bits as one number: the order of the bits in a byte, the five bytes as one register, and a run of pulses
within one frame attempt (spec/20_memory.md R52 to R54, spec/41_frame_assembler.md R110 to R116). -/

namespace Sys2Proof.Machine

/-! ## One byte -/

/-- The bit shifted in is the lowest. -/
theorem shiftBit_getLsbD_zero (r : Byte) (b : Bool) : (shiftBit r b).getLsbD 0 = b := by
  simp [shiftBit]

/-- A shift moves every bit one place up. -/
theorem shiftBit_getLsbD_succ (r : Byte) (b : Bool) {j : Nat} (hj : j + 1 < 8) :
    (shiftBit r b).getLsbD (j + 1) = r.getLsbD j := by
  simp [shiftBit, hj, BitVec.getLsbD_eq_getElem (Nat.lt_of_succ_lt hj)]

/-- After shifting in a list, the last bit first, bit `j` is the one at place `j`, whatever the register held. -/
theorem foldr_shiftBit_getLsbD (r : Byte) (bs : List Bool) {j : Nat} (hj : j < bs.length) (h8 : j < 8) :
    (bs.foldr (fun b r => shiftBit r b) r).getLsbD j = bs[j] := by
  induction bs generalizing j with
  | nil => exact absurd hj (Nat.not_lt_zero j)
  | cons b bs ih =>
    rw [List.foldr_cons]
    cases j with
    | zero => exact shiftBit_getLsbD_zero _ b
    | succ j => exact (shiftBit_getLsbD_succ _ b h8).trans (ih (Nat.lt_of_succ_lt_succ hj) (Nat.lt_of_succ_lt h8))

/-- Settles O20: read from the last bit back, place `7 - k` of eight bits is the `k`-th. -/
theorem eightShiftsPutTheFirstBitHighest : Obligations.EightShiftsPutTheFirstBitHighest := by
  intro r bits k
  rw [List.foldl_eq_foldr_reverse, foldr_shiftBit_getLsbD r _ (by simp; omega) (by omega), List.getElem_reverse,
    List.getElem_ofFn]
  congr 1
  ext
  simp
  omega

/-! ## Five bytes -/

/-- A byte before the one being received is full. -/
theorem bitsInByte_full {i : Int} {k : Nat} (h : (8 * k + 8 : Nat) ≤ i) : bitsInByte i k = 8 := by
  unfold bitsInByte
  omega

/-- A byte after the one being received is empty. -/
theorem bitsInByte_empty {i : Int} {k : Nat} (h : i ≤ (8 * k : Nat)) : bitsInByte i k = 0 := by
  unfold bitsInByte
  omega

/-- The byte `r` appended to the number `x`, as byte `k` of a frame when the sequencer is at `i`: `x` makes room for as many
bits as the byte has received. -/
def appendByte (i : Int) (k x : Nat) (r : Byte) : Nat := x * 2 ^ bitsInByte i k + r.toNat

/-- A full byte is appended alike at the next index. -/
theorem appendByte_full {i : Int} {k : Nat} (hi : (8 * k + 8 : Nat) ≤ i) (x : Nat) (r : Byte) :
    appendByte (i + 1) k x r = appendByte i k x r := by
  unfold appendByte
  rw [bitsInByte_full hi, bitsInByte_full (by omega)]

/-- The byte that the pulse at `i` is a bit of takes the bit: it has room for it, so the shift discards nothing. -/
theorem appendByte_shifted {i : Int} {k : Nat} {r : Byte} (h0 : (8 * k : Nat) ≤ i) (h1 : i < (8 * k + 8 : Nat))
    (hr : r.toNat < 2 ^ bitsInByte i k) (x : Nat) (b : Bool) :
    appendByte (i + 1) k x (appendBit r b) = 2 * appendByte i k x r + b.toNat := by
  have hroom : bitsInByte i k ≤ 7 := by
    unfold bitsInByte
    omega
  have hr7 : r.toNat < 2 ^ 7 := hr.trans_le (Nat.pow_le_pow_right (by omega) hroom)
  unfold appendByte
  rw [bitsInByte_succ h0 h1, appendBit_toNat r b hr7, Nat.pow_succ]
  ring

/-- A byte that the pulse at `i` comes before is 0 and takes no room, so the bit passes it by. -/
theorem appendByte_empty {i : Int} {k : Nat} {r : Byte} (hi : i < (8 * k : Nat)) (hr : r.toNat < 2 ^ bitsInByte i k)
    (x b : Nat) : appendByte (i + 1) k (2 * x + b) r = 2 * appendByte i k x r + b := by
  unfold appendByte
  rw [bitsInByte_empty hi.le] at hr
  rw [bitsInByte_empty hi.le, bitsInByte_empty (by omega)]
  omega

/-- The five bytes of a frame as one number, the first highest, when the sequencer is at `i`: `receivedBits` for an index
that need not be the one in the record. -/
def receivedAt (i : Int) (d : DecodeState) : Nat :=
  let payload := appendByte i 3 (appendByte i 2 (appendByte i 1 (appendByte i 0 0 d.humHi) d.humLo) d.tmpHi) d.tmpLo
  appendByte i 4 payload d.cksAcc

theorem receivedBits_eq_receivedAt (d : DecodeState) : receivedBits d = receivedAt d.bitIndex.toInt d := by
  simp [receivedBits, receivedAt, appendByte]

/-- A shift at a payload index doubles the number and adds the bit: the bytes before the one it writes are full, those
after it are empty. -/
theorem receivedAt_shiftIn {i : Int} {d : DecodeState} (h : BytesWithin i d) (h0 : 0 ≤ i) (h1 : i ≤ 39) (b : Bool) :
    receivedAt (i + 1) (shiftIn d i.toNat b) = 2 * receivedAt i d + b.toNat := by
  unfold receivedAt
  rcases shiftIn_cases d i.toNat b (by omega) with ⟨hi, e⟩ | ⟨hi, hi', e⟩ | ⟨hi, hi', e⟩ | ⟨hi, hi', e⟩ | ⟨hi, e⟩ <;>
    rw [e] <;> dsimp only
  · rw [appendByte_shifted (by omega) (by omega) h.humHi, appendByte_empty (by omega) h.humLo,
      appendByte_empty (by omega) h.tmpHi, appendByte_empty (by omega) h.tmpLo, appendByte_empty (by omega) h.cksAcc]
  · rw [appendByte_full (k := 0) (by omega), appendByte_shifted (by omega) (by omega) h.humLo,
      appendByte_empty (by omega) h.tmpHi, appendByte_empty (by omega) h.tmpLo, appendByte_empty (by omega) h.cksAcc]
  · rw [appendByte_full (k := 0) (by omega), appendByte_full (k := 1) (by omega),
      appendByte_shifted (by omega) (by omega) h.tmpHi, appendByte_empty (by omega) h.tmpLo,
      appendByte_empty (by omega) h.cksAcc]
  · rw [appendByte_full (k := 0) (by omega), appendByte_full (k := 1) (by omega), appendByte_full (k := 2) (by omega),
      appendByte_shifted (by omega) (by omega) h.tmpLo, appendByte_empty (by omega) h.cksAcc]
  · rw [appendByte_full (k := 0) (by omega), appendByte_full (k := 1) (by omega), appendByte_full (k := 2) (by omega),
      appendByte_full (k := 3) (by omega), appendByte_shifted (by omega) (by omega) h.cksAcc]

/-! ## One accepted payload bit -/

/-- The Decode State after a falling edge on a payload bit: the bit shifted in, the poison mark set by a long pulse, the
index advanced. -/
def bitTaken (s : State) (tick : Tick) : DecodeState :=
  { shiftIn { s.dec with poisoned := s.dec.poisoned || decide (200 ≤ pulseWidth s tick) } s.dec.bitIndex.toInt.toNat
      (decide (50 ≤ pulseWidth s tick)) with
    bitIndex := advanceIndex s.dec.bitIndex }

/-- What a falling edge on a payload bit does to the frame, the last bit included, and that before the last one it does
nothing to the Reading, the counters and the recovery (R112, R114, R116). -/
structure TookBit (s : State) (tick : Tick) (t : State) : Prop where
  dec    : t.dec = bitTaken s tick
  active : t.facade.active = s.facade.active
  kept   : s.dec.bitIndex.toInt < 39 → t.reading = s.reading ∧ t.errors = s.errors ∧ t.recovery = s.recovery

/-- The Decode State of a completed frame is that of any other payload bit. -/
theorem completedFrame_dec {s : State} (tick : Tick) (hi : s.dec.bitIndex.toInt = 39) :
    (completedFrame s tick).dec = bitTaken s tick := by
  rw [bitTaken, advanceIndex_eq, hi, show (39 : Int).toNat = 39 from rfl, shiftIn_39]
  rfl

/-- An accepted falling edge at a payload index takes a bit. -/
theorem did_tookBit {s t : State} {tick : Tick} (ha : s.facade.active = true) (h0 : 0 ≤ s.dec.bitIndex.toInt)
    (h1 : s.dec.bitIndex.toInt ≤ 39) (d : Did s (.fall tick) t) : TookBit s tick t := by
  cases d with
  | turnedAway _ st hst why => simp [masked, eventSource, Instr.kind, ha, readsReading, Kind.isReserved] at why
  | readOut _ _ hk => cases hk
  | fellHeader _ _ hi => omega
  | fellIdle _ _ hi => omega
  | fellPayload => exact ⟨rfl, rfl, fun _ => ⟨rfl, rfl, rfl⟩⟩
  | published _ _ hi =>
    refine ⟨completedFrame_dec tick hi, ?_, fun h => by omega⟩
    cases hl : s.cfg.hasIndicatorLine <;> rfl
  | mismatched _ _ hi => exact ⟨completedFrame_dec tick hi, rfl, fun h => by omega⟩

section
variable {s t : State} {tick : Tick} (h : TookBit s tick t)
include h

theorem TookBit.index (h1 : s.dec.bitIndex.toInt ≤ 39) : t.dec.bitIndex.toInt = s.dec.bitIndex.toInt + 1 := by
  rw [h.dec, bitTaken, advanceIndex_toInt]
  omega

theorem TookBit.poisoned : t.dec.poisoned = (s.dec.poisoned || decide (200 ≤ pulseWidth s tick)) := by
  rw [h.dec]
  exact (shiftIn_keeps _ _ _).2.2

/-- The number received doubles and takes the bit, while the frame invariant holds. -/
theorem TookBit.receivedBits_eq (hinv : FrameInv s) (h0 : 0 ≤ s.dec.bitIndex.toInt) (h1 : s.dec.bitIndex.toInt ≤ 39) :
    receivedBits t.dec = 2 * receivedBits s.dec + (decide (50 ≤ pulseWidth s tick)).toNat := by
  have hb : BytesWithin s.dec.bitIndex.toInt
      { s.dec with poisoned := s.dec.poisoned || decide (200 ≤ pulseWidth s tick) } := { hinv with }
  rw [receivedBits_eq_receivedAt t.dec, receivedBits_eq_receivedAt s.dec, h.index h1, h.dec, bitTaken]
  exact receivedAt_shiftIn hb h0 h1 _

end

/-- At index 40 every byte is full, so the number is the five bytes in order. -/
theorem receivedBits_of_complete {d : DecodeState} (h : d.bitIndex.toInt = 40) :
    receivedBits d = (((d.humHi.toNat * 256 + d.humLo.toNat) * 256 + d.tmpHi.toNat) * 256 + d.tmpLo.toNat) * 256
      + d.cksAcc.toNat := by
  have full {k : Nat} (hk : k ≤ 4) : bitsInByte 40 k = 8 := bitsInByte_full (by omega)
  simp [receivedBits, h, full]

/-- Settles O21: an accepted payload bit, and the number of a complete frame. -/
theorem payloadBitsFormOneBigEndianNumber : Obligations.PayloadBitsFormOneBigEndianNumber := by
  intro s t tick hinv ha h0 h1 hx
  have took := did_tookBit ha h0 h1 (did_of_exec hx)
  exact ⟨took.receivedBits_eq hinv h0 h1, receivedBits_of_complete⟩

/-! ## A run of pulses -/

/-- A run is its first event and the run from where that leads. -/
theorem runEvents_cons {i : Instr} {s t : State} (is : List Instr) (h : exec i s = .next t) :
    runEvents (i :: is) s = runEvents is t := by
  rw [runEvents, h]

/-- What a run of high pulses from `s` to `t` within one frame attempt has done: the index counts the pulses,
the number takes a bit of each, a long one poisons, and before the 40th bit nothing is published or counted. -/
structure PulsesReceived (s : State) (ps : List (Tick × Tick)) (t : State) : Prop where
  index    : t.dec.bitIndex.toInt = s.dec.bitIndex.toInt + ps.length
  bits     : receivedBits t.dec =
    ps.foldl (fun n p => 2 * n + (decide (50 ≤ ticksBetween p.1 p.2)).toNat) (receivedBits s.dec)
  poisoned : t.dec.poisoned = true ↔ s.dec.poisoned = true ∨ ∃ p ∈ ps, 200 ≤ ticksBetween p.1 p.2
  kept     : s.dec.bitIndex.toInt + ps.length < 40 →
    t.reading = s.reading ∧ t.errors = s.errors ∧ t.recovery = s.recovery

theorem pulsesReceived_nil (s : State) : PulsesReceived s [] s where
  index := by simp
  bits := rfl
  poisoned := by simp
  kept := fun _ => ⟨rfl, rfl, rfl⟩

/-- A first pulse and the run after it. -/
theorem PulsesReceived.cons {s u t : State} {p : Tick × Tick} {ps : List (Tick × Tick)} (h : PulsesReceived s [p] u)
    (hs : PulsesReceived u ps t) : PulsesReceived s (p :: ps) t := by
  have hlen : ((p :: ps).length : Int) = ps.length + 1 := by simp
  have hu : u.dec.bitIndex.toInt = s.dec.bitIndex.toInt + 1 := h.index
  refine ⟨?_, ?_, ?_, fun hlt => ?_⟩
  · rw [hs.index, hu, hlen]
    omega
  · rw [hs.bits, h.bits]
    rfl
  · rw [hs.poisoned, h.poisoned]
    simp [or_assoc]
  · rw [hlen] at hlt
    obtain ⟨hr, he, hv⟩ := h.kept (by simp; omega)
    obtain ⟨hr', he', hv'⟩ := hs.kept (by omega)
    exact ⟨hr'.trans hr, he'.trans he, hv'.trans hv⟩

/-- The state after an accepted rising edge that ends no long gap: its tick is the reference (R110). -/
def roseAt (s : State) (up : Tick) : State :=
  { s with dec := { s.dec with lastRisingTick := up }, response := some ⟨.ok, 0#128⟩, actions := [] }

/-- A rising edge after no long gap records its tick and starts no frame attempt. -/
theorem exec_rise_paced {s : State} {up : Tick} (ha : s.facade.active = true)
    (hg : ticksBetween s.dec.lastRisingTick up ≤ 250000) : exec (.rise up) s = .next (roseAt s up) := by
  rw [exec_rise_active s up ha, if_neg (Nat.not_lt.mpr hg)]
  rfl

/-- A falling edge after it ends the pulse that began there. -/
theorem pulseWidth_roseAt (s : State) (up down : Tick) : pulseWidth (roseAt s up) down = ticksBetween up down := rfl

theorem frameInv_roseAt {s : State} (h : FrameInv s) (up : Tick) : FrameInv (roseAt s up) := { h with }

/-- The bit of a falling edge right after a rising one is a pulse received. -/
theorem TookBit.pulsesReceived {s t : State} {up down : Tick} (h : TookBit (roseAt s up) down t) (hinv : FrameInv s)
    (h0 : 0 ≤ s.dec.bitIndex.toInt) (h1 : s.dec.bitIndex.toInt ≤ 39) : PulsesReceived s [(up, down)] t where
  index := h.index h1
  bits := h.receivedBits_eq (frameInv_roseAt hinv up) h0 h1
  poisoned := by
    rw [h.poisoned, pulseWidth_roseAt]
    simp [roseAt]
  kept := fun hlt => h.kept (Int.lt_of_add_lt_add_right hlt)

/-- The falling edge of a pulse within a frame attempt makes it one received. It keeps the invariant and leaves the rising
edge as the reference and the channel active. -/
theorem exec_fall_roseAt {s : State} {up down : Tick} (hinv : FrameInv s) (ha : s.facade.active = true)
    (h0 : 0 ≤ s.dec.bitIndex.toInt) (h1 : s.dec.bitIndex.toInt ≤ 39) :
    ∃ t, exec (.fall down) (roseAt s up) = .next t ∧ PulsesReceived s [(up, down)] t ∧ FrameInv t ∧
      t.facade.active = true ∧ t.dec.lastRisingTick = up := by
  obtain ⟨t, hfall, d⟩ := exec_did (.fall down) (roseAt s up)
  have took : TookBit (roseAt s up) down t := did_tookBit ha h0 h1 d
  refine ⟨t, hfall, took.pulsesReceived hinv h0 h1, did_keeps_frameInv (frameInv_roseAt hinv up) d,
    took.active.trans ha, ?_⟩
  exact (did_lastRisingTick d).resolve_right fun h => nomatch h.1

/-- A run of pulses that fits into the rest of a frame attempt and has no long gap is received, by induction on the pulses:
the first one leaves a state from which the rest is such a run. -/
theorem runEvents_edgesOf (ps : List (Tick × Tick)) (s : State) (hinv : FrameInv s) (ha : s.facade.active = true)
    (h0 : 0 ≤ s.dec.bitIndex.toInt) (hfit : s.dec.bitIndex.toInt + ps.length ≤ 40)
    (hpaced : pacedFrom s.dec.lastRisingTick ps) :
    ∃ t, runEvents (edgesOf ps) s = .next t ∧ PulsesReceived s ps t := by
  induction ps generalizing s with
  | nil => exact ⟨s, rfl, pulsesReceived_nil s⟩
  | cons p ps ih =>
    obtain ⟨up, down⟩ := p
    obtain ⟨hg, hrest⟩ := hpaced
    rw [List.length_cons] at hfit
    obtain ⟨u, hfall, hfirst, hinv', ha', htick⟩ :=
      exec_fall_roseAt (up := up) (down := down) hinv ha h0 (by omega)
    have hindex : u.dec.bitIndex.toInt = s.dec.bitIndex.toInt + 1 := hfirst.index
    obtain ⟨t, hrun, hps⟩ := ih u hinv' ha' (by omega) (by omega) (htick ▸ hrest)
    refine ⟨t, ?_, hfirst.cons hps⟩
    rw [edgesOf, runEvents_cons _ (exec_rise_paced ha hg), runEvents_cons _ hfall, hrun]

/-- Settles O22: the four clauses of `PulsesReceived`. -/
theorem pulsesOfOneFrameAreReceivedInOrder : Obligations.PulsesOfOneFrameAreReceivedInOrder := by
  intro ps s hinv ha h0 hfit hpaced
  obtain ⟨t, hrun, hps⟩ := runEvents_edgesOf ps s hinv ha h0 hfit hpaced
  exact ⟨t, hrun, hps.index, hps.bits, hps.poisoned, hps.kept⟩

end Sys2Proof.Machine
end

section
/-! The host reads: a response and nothing else (spec/20_memory.md R57, R62). -/

namespace Sys2Proof.Machine

/-- The kinds of the host reads are those of the five selectors (R62). -/
theorem exists_readSel {k : Kind} (h : k.isRead = true) : ∃ sel : ReadSel, sel.kind = k := by
  cases k with
  | rdHumidity => exact ⟨.humidity, rfl⟩
  | rdTemperature => exact ⟨.temperature, rfl⟩
  | rdStaleness => exact ⟨.staleness, rfl⟩
  | rdDiagnostics => exact ⟨.diagnostics, rfl⟩
  | rdStatus => exact ⟨.status, rfl⟩
  | _ => cases h

/-- The event of a selector is its read, whatever the reserved argument. -/
theorem exec_read (sel : ReadSel) (a : BitVec 32) (s : State) :
    exec (Instr.ofKind sel.kind a) s = .next (s.read sel) := by
  cases sel <;> rfl

/-- Settles O46: every read is one of the five selectors', and `RdPort` answers OK or NEVER_VALID. -/
theorem readsHaveNoSideEffects : Obligations.ReadsHaveNoSideEffects := by
  intro k a s hk
  obtain ⟨sel, rfl⟩ := exists_readSel hk
  refine ⟨(s.rdPort sel).status, (s.rdPort sel).data, exec_read sel a s, ?_⟩
  rcases rdPort_status s sel with ⟨hok, _⟩ | ⟨hnever, _⟩
  · exact .inl hok
  · exact .inr hnever

end Sys2Proof.Machine
end

section
/-! The event word is its two fields, and the opcode table tests the upper one (spec/30_encoding.md R70, R71, R80). -/

namespace Sys2Proof.Laws

/-! ## Words and instructions -/

/-- A word decodes by its two fields. -/
theorem decode_append (c : BitVec 4) (a : BitVec 32) : decode (c ++ a) = Instr.ofKind (kindOfCode c) a := by
  obtain ⟨hkind, harg⟩ := fields_append c a
  rw [decode, hkind, harg]

/-- Decoding an encoding gives the instruction back. -/
theorem decode_encode (i : Instr) : decode (encode i) = i := by
  rw [encode, decode_append, kindOfCode_code, ofKind_kind_arg]

/-- Encoding what a word decodes to gives the word back. -/
theorem encode_decode (w : EventWord) : encode (decode w) = w := by
  rw [encode, decode, kind_ofKind, arg_ofKind, code_kindOfCode]
  exact append_extract (m := 4) (n := 32) w

/-- Settles O1: the two fields are read back as they were put together, and codes and kinds stand for one another. -/
theorem decodeAndEncodeAreInverse : Obligations.DecodeAndEncodeAreInverse :=
  ⟨decode_encode, encode_decode⟩

/-- Settles O3: the decoder, run on each of the words. -/
theorem writtenOutWordsDecode : Obligations.WrittenOutWordsDecode := by
  unfold Obligations.WrittenOutWordsDecode
  decide

/-! ## Rows of the opcode table -/

/-- The row that R80 describes for a kind: the mask takes the upper field, the value is the kind's code there. -/
def rowOf (k : Kind) : OpcodeRow := ⟨k, BitVec.allOnes 4 ++ 0#32, k.code ++ 0#32⟩

/-- The table has the row of every kind. -/
theorem rowOf_mem_opcodeTable (k : Kind) : rowOf k ∈ opcodeTable := by
  cases k <;> decide

/-- The table has no other row. -/
theorem eq_rowOf_of_mem_opcodeTable : ∀ r ∈ opcodeTable, r = rowOf r.kind := by
  decide

/-- A row matches exactly the words that decode to its kind. -/
theorem rowOf_matchesWord (k : Kind) (w : EventWord) : (rowOf k).matchesWord w = true ↔ k = (decode w).kind := by
  have hmask : w &&& (rowOf k).mask = (decode w).kind.code ++ 0#32 :=
    calc w &&& (rowOf k).mask = encode (decode w) &&& (BitVec.allOnes 4 ++ 0#32) := by rw [encode_decode, rowOf]
      _ = ((decode w).kind.code &&& BitVec.allOnes 4) ++ ((decode w).arg &&& 0#32) := BitVec.and_append
      _ = (decode w).kind.code ++ 0#32 := by rw [BitVec.and_allOnes, BitVec.and_zero]
  rw [OpcodeRow.matchesWord, beq_iff_eq, hmask]
  constructor
  · intro h
    have hcode : (decode w).kind.code = k.code := by
      rw [← extract_upper (decode w).kind.code 0#32, h]
      exact extract_upper k.code 0#32
    rw [← kindOfCode_code k, ← hcode, kindOfCode_code]
  · rintro rfl
    rfl

/-- Settles O2: the row of the decoded kind matches, and a row that matches has that kind. -/
theorem everyWordMatchesExactlyOneRow : Obligations.EveryWordMatchesExactlyOneRow := by
  intro w
  refine ⟨rowOf (decode w).kind, rowOf_mem_opcodeTable _, (rowOf_matchesWord _ w).mpr rfl, rfl, fun r hr hmatch => ?_⟩
  rw [eq_rowOf_of_mem_opcodeTable r hr] at hmatch ⊢
  rw [(rowOf_matchesWord _ w).mp hmatch]

end Sys2Proof.Laws
end

section
/-! The output words: their fields, and the action a command word stands for (spec/30_encoding.md R74 to R76). -/

namespace Sys2Proof.Machine

/-- The action that a code and an argument stand for (R76). A code above 7 is no action's; it reads as the last one. -/
def actionOfFields (c : BitVec 4) (n : BitVec 32) : Action :=
  match c.toNat with
  | 0 => .wdDisarm
  | 1 => .wdArm n
  | 2 => .dataLow
  | 3 => .dataInput
  | 4 => .power (n.getLsbD 0)
  | 5 => .indicator (n.getLsbD 0)
  | 6 => .timerStart (if n.msb then .settle else .trig) (n.extractLsb' 0 31)
  | _ => .unsubscribe

/-- An action is what its code and its argument stand for. -/
theorem actionOfFields_code_arg (a : Action) : actionOfFields a.code a.arg = a := by
  cases a with
  | wdDisarm | wdArm | dataLow | dataInput | unsubscribe => rfl
  | power b | indicator b => cases b <;> rfl
  | timerStart id d =>
    have hmsb : (id.code ++ d).msb = id.code.msb := BitVec.msb_append
    have hlow : (id.code ++ d).extractLsb' 0 31 = d := Laws.extract_lower _ _
    calc actionOfFields 0x6#4 (id.code ++ d)
        = .timerStart (if (id.code ++ d).msb then .settle else .trig) ((id.code ++ d).extractLsb' 0 31) := rfl
      _ = .timerStart id d := by rw [hmsb, hlow]; cases id <;> rfl

/-- An action is what the two fields of its word stand for. -/
theorem actionOfFields_word (a : Action) :
    actionOfFields (a.word.extractLsb' 32 4) (a.word.extractLsb' 0 32) = a := by
  have hcode : a.word.extractLsb' 32 4 = a.code := Laws.extract_upper _ _
  have harg : a.word.extractLsb' 0 32 = a.arg := Laws.extract_lower _ _
  rw [hcode, harg, actionOfFields_code_arg]

/-- Two actions of one word are one action. -/
theorem action_word_injective : Function.Injective Action.word := fun a b h => by
  rw [← actionOfFields_word a, h, actionOfFields_word]

/-- Settles O5: the fields of a response, the codes of the tables, and the action read back from its word. -/
theorem outputWordsFollowTheCodeTables : Obligations.OutputWordsFollowTheCodeTables :=
  ⟨fun _ => ⟨Laws.extract_upper _ _, Laws.extract_lower _ _⟩, rfl, rfl, rfl, rfl, rfl, rfl, rfl, rfl, fun _ => rfl,
    rfl, rfl, rfl, rfl, rfl, rfl, fun _ => rfl, fun _ => rfl, rfl, fun _ _ h => action_word_injective h⟩

end Sys2Proof.Machine
end

section
/-! The status of an event: which one its kind and the state call for, and what goes with each (spec/30_encoding.md R72 to
R75, spec/60_exceptions.md R247, R248). -/

namespace Sys2Proof.Machine

/-! ## Reserved bits and kinds -/

/-- Settles O4: no meaning but those of the two edges reads its argument. -/
theorem reservedArgumentIsIgnored : Obligations.ReservedArgumentIsIgnored := by
  intro k a b s hk
  cases k with
  | fall | rise => cases hk
  | _ => rfl

/-- An event of a reserved kind is turned away. -/
theorem exec_of_isReserved {i : Instr} (s : State) (h : i.kind.isReserved = true) :
    exec i s = .next (answeredOnly s .illegalEvent 0#128) := by
  cases i with
  | reserved7 | reservedD | reservedE | reservedF => rfl
  | _ => cases h

/-- Settles O44: the four kinds are the reserved ones. -/
theorem reservedKindsAreIllegalEvents : Obligations.ReservedKindsAreIllegalEvents :=
  fun s _ => ⟨exec_of_isReserved s rfl, exec_of_isReserved s rfl, exec_of_isReserved s rfl, exec_of_isReserved s rfl⟩

/-! ## Statuses -/

/-- The status that the table of R75 gives an event of each kind. -/
def statusDue (s : State) : Kind → Status
  | .fall | .rise => if s.facade.active then .ok else .ignored
  | .timeout => if s.facade.wdArmed && s.facade.active then .ok else .ignored
  | .settleDone => if s.recovery.recPhase = .idle then .ignored else .ok
  | .trigDone => if s.facade.trigPhase = .idle then .ignored else .ok
  | .trigReq =>
    if !s.facade.active then .rejectedInactive
    else if !s.recovery.powered then .rejectedUnpowered
    else if s.facade.trigPhase = .asserting then .rejectedBusy
    else .ok
  | .rdHumidity | .rdTemperature | .rdStaleness => if s.reading.readingValid then .ok else .neverValid
  | .shutdown | .rdDiagnostics | .rdStatus => .ok
  | .reserved7 | .reservedD | .reservedE | .reservedF => .illegalEvent

/-- The rows of R75 but OK: a status is the answer to an event exactly under its row's condition. -/
structure FollowsStatusTable (s : State) (i : Instr) (st : Status) : Prop where
  ignored    : st = .ignored ↔ masked s i = true
  illegal    : st = .illegalEvent ↔ i.kind.isReserved = true
  inactive   : st = .rejectedInactive ↔ i.kind = .trigReq ∧ s.facade.active = false
  unpowered  : st = .rejectedUnpowered ↔ i.kind = .trigReq ∧ s.facade.active = true ∧ s.recovery.powered = false
  busy       : st = .rejectedBusy ↔
    i.kind = .trigReq ∧ s.facade.active = true ∧ s.recovery.powered = true ∧ s.facade.trigPhase = .asserting
  neverValid : st = .neverValid ↔ readsReading i.kind = true ∧ s.reading.readingValid = false

/-- Row by row, `statusDue` makes for each kind the same test as the table. -/
theorem statusDue_followsStatusTable (s : State) (i : Instr) : FollowsStatusTable s i (statusDue s i.kind) where
  ignored := by
    cases i <;> simp [statusDue, masked, eventSource, Instr.kind, ite_eq_iff, imp_iff_not_or]
  illegal := by cases i <;> simp [statusDue, Instr.kind, Kind.isReserved, ite_eq_iff]
  inactive := by cases i <;> simp [statusDue, Instr.kind, ite_eq_iff]
  unpowered := by cases i <;> simp [statusDue, Instr.kind, ite_eq_iff]
  busy := by cases i <;> simp [statusDue, Instr.kind, ite_eq_iff]
  neverValid := by cases i <;> simp [statusDue, Instr.kind, readsReading, ite_eq_iff]

/-- An answer of OK has the status due where OK is due. -/
theorem response_statusDue_of_ok {s t : State} {i : Instr} {d : Data} (hr : t.response = some ⟨.ok, d⟩)
    (hok : statusDue s i.kind = .ok) : ∃ data, t.response = some ⟨statusDue s i.kind, data⟩ :=
  ⟨d, by rw [hok, hr]⟩

/-- Every event is answered with the status due. -/
theorem did_status {i : Instr} {s t : State} (d : Did s i t) :
    ∃ data, t.response = some ⟨statusDue s i.kind, data⟩ := by
  cases d with
  | turnedAway _ st _ why =>
    have table := statusDue_followsStatusTable s i
    have hst : statusDue s i.kind = st := by
      rcases why with ⟨rfl, h⟩ | ⟨rfl, h⟩ | ⟨rfl, h⟩ | ⟨rfl, h⟩ | ⟨rfl, h⟩ | ⟨rfl, h⟩
      · exact table.ignored.mpr h
      · exact table.inactive.mpr h
      · exact table.unpowered.mpr h
      · exact table.busy.mpr h
      · exact table.neverValid.mpr h
      · exact table.illegal.mpr h
    exact ⟨0#128, by rw [hst]; rfl⟩
  | readOut _ d hk hv =>
    refine response_statusDue_of_ok rfl ?_
    cases i with
    | rdHumidity | rdTemperature | rdStaleness => exact if_pos (hv rfl)
    | rdDiagnostics | rdStatus => rfl
    | _ => cases hk
  | shutAgain | shut => exact response_statusDue_of_ok rfl rfl
  | roseShort _ ha | roseLong _ ha | fellHeader _ ha | fellPayload _ ha | fellIdle _ ha | published _ ha
  | mismatched _ ha => exact response_statusDue_of_ok rfl (if_pos ha)
  | missed _ ha hw | missedNoLine _ ha hw | missedDropped _ ha hw | recoveryStarted _ ha hw | timedOutLater _ ha hw =>
    exact response_statusDue_of_ok rfl (by simp [statusDue, Instr.kind, ha, hw])
  | powerRestored _ hr | recoveryFinished _ hr =>
    exact response_statusDue_of_ok rfl (by simp [statusDue, Instr.kind, hr])
  | triggered _ ha hp ht => exact response_statusDue_of_ok rfl (by simp [statusDue, Instr.kind, ha, hp, ht])
  | released _ ht => exact response_statusDue_of_ok rfl (by simp [statusDue, Instr.kind, ht])

/-- Settles O48: the status due is the answer, and it follows the table. -/
theorem ignoredExactlyWhenMasked : Obligations.IgnoredExactlyWhenMasked := by
  intro i s
  obtain ⟨t, h, d⟩ := exec_did i s
  obtain ⟨data, hr⟩ := did_status d
  obtain ⟨ignored, illegal, inactive, unpowered, busy, neverValid⟩ := statusDue_followsStatusTable s i
  exact ⟨t, _, h, hr, ignored, illegal, inactive, unpowered, busy, neverValid⟩

/-- Settles O47: of all that an event can do only being turned away answers another status than OK. -/
theorem everyOtherStatusIsACompleteNoOp : Obligations.EveryOtherStatusIsACompleteNoOp := by
  intro i s t r h hr hne
  cases did_of_exec h with
  | turnedAway => cases hr; rfl
  | _ => cases hr; exact absurd rfl hne

end Sys2Proof.Machine
end

section
/-! The distance between two ticks of the wrapping counter (spec/40_tick_arithmetic.md R100). -/

namespace Sys2Proof.Machine

/-- The distance is the integer difference, reduced modulo the counter's range. -/
theorem elapsed_toNat_eq_emod (a b : Tick) :
    ((elapsed a b).toNat : Int) = ((b.toNat : Int) - (a.toNat : Int)) % 2 ^ 32 := by
  have hnonneg : 0 ≤ ((b.toNat : Int) - (a.toNat : Int)) % 2 ^ 32 := Int.emod_nonneg _ (by decide)
  rw [elapsed_toNat, ticksBetween, Int.toNat_of_nonneg hnonneg]

/-- No ticks pass between a tick and itself. -/
@[simp] theorem elapsed_self (a : Tick) : elapsed a a = 0#32 :=
  BitVec.sub_self a

/-- The tick just before is the farthest one ahead. -/
theorem elapsed_pred (a : Tick) : elapsed a (a - 1#32) = 0xFFFFFFFF#32 :=
  calc elapsed a (a - 1#32)
    _ = -1#32 := sub_sub_cancel_left a 1#32
    _ = 0xFFFFFFFF#32 := by decide

/-- A later tick with the smaller number lies behind exactly one wrap of the counter. -/
theorem elapsed_toNat_of_lt (a b : Tick) (h : b.toNat < a.toNat) :
    (elapsed a b).toNat = 2 ^ 32 - a.toNat + b.toNat := by
  have ha := a.isLt
  have hmod := elapsed_toNat_eq_emod a b
  omega

/-- Settles O10: the formula, its three corner cases, and the example by evaluation. -/
theorem elapsedIsTheDifferenceModuloTheWrap : Obligations.ElapsedIsTheDifferenceModuloTheWrap :=
  ⟨elapsed_toNat_eq_emod, elapsed_self, elapsed_pred, elapsed_toNat_of_lt, by decide⟩

end Sys2Proof.Machine
end

section
/-! The thresholds of pulse widths and the events that are masked (spec/41_frame_assembler.md R113, spec/60_exceptions.md
R248). -/

namespace Sys2Proof.Machine

/-! ## Pulse widths -/

/-- Settles O11: the two tests of the discriminator, in their order. -/
theorem pulseWidthsClassifyByTheThresholds : Obligations.PulseWidthsClassifyByTheThresholds := by
  intro w
  unfold classify tOne tLong
  refine ⟨fun h => if_pos h, fun ⟨h50, h200⟩ => ?_, fun h200 => ?_⟩
  · rw [if_neg (by omega), if_pos h200]
  · rw [if_neg (by omega), if_neg (by omega)]

/-! ## Masked events -/

@[simp] theorem masked_fall (s : State) (tick : Tick) : masked s (.fall tick) = !s.facade.active := rfl

@[simp] theorem masked_rise (s : State) (tick : Tick) : masked s (.rise tick) = !s.facade.active := rfl

@[simp] theorem masked_timeout (s : State) (a : BitVec 32) :
    masked s (.timeout a) = (!s.facade.wdArmed || !s.facade.active) := rfl

@[simp] theorem masked_settleDone (s : State) (a : BitVec 32) :
    masked s (.settleDone a) = (s.recovery.recPhase == .idle) := rfl

@[simp] theorem masked_trigDone (s : State) (a : BitVec 32) :
    masked s (.trigDone a) = (s.facade.trigPhase == .idle) := rfl

/-- A masked event is one of the collaborator's, and its meaning turns it away. -/
theorem exec_of_masked {s : State} {i : Instr} (h : masked s i = true) :
    exec i s = .next (answeredOnly s .ignored 0#128) := by
  cases i with
  | fall tick => exact exec_fall_inactive s tick (by simpa using h)
  | rise tick => exact exec_rise_inactive s tick (by simpa using h)
  | timeout a => exact exec_timeout_masked s a (by simpa [or_comm] using h)
  | settleDone a => exact exec_settleDone_idle s a (by simpa using h)
  | trigDone a => exact exec_trigDone_idle s a (by simpa using h)
  | _ => cases h

/-- Settles O12: a masked event is turned away, and the conditions are those of R248. -/
theorem maskedEventsAreCompleteNoOps : Obligations.MaskedEventsAreCompleteNoOps := by
  refine ⟨fun _ _ => exec_of_masked, fun s a => ⟨fun h => ?_, fun h => ?_, fun h => ?_, fun h => ?_⟩⟩ <;> simp [h]

end Sys2Proof.Machine
end

section
/-! The accepted edges that complete no frame: RISE, and FALL on a header bit, on a payload bit before the last and while
idle (spec/41_frame_assembler.md R110 to R118). -/

namespace Sys2Proof.Machine

/-- Settles O13: what `frame_reset()` writes is the Decode State after hardware reset but for the tick. -/
theorem riseRecordsTheTickAndALongGapStartsAFrame : Obligations.RiseRecordsTheTickAndALongGapStartsAFrame :=
  exec_rise_active

/-! ## The index advance -/

/-- Below the saturation the advance adds one. -/
theorem advanceIndex_of_lt {i : BitVec 8} (h : i.toInt < 127) : advanceIndex i = BitVec.ofInt 8 (i.toInt + 1) := by
  rw [advanceIndex_eq, min_eq_left (by omega)]

/-- Settles O14: a header bit is far from the saturation. -/
theorem headerFallingEdgeOnlyAdvancesTheIndex : Obligations.HeaderFallingEdgeOnlyAdvancesTheIndex := by
  intro s tick ha hi
  rw [exec_fall_header s tick ha hi, advanceIndex_of_lt (by omega)]

/-- Settles O15: while idle the advance may meet the saturation. -/
theorem idleFallingEdgeOnlyAdvancesTheIndex : Obligations.IdleFallingEdgeOnlyAdvancesTheIndex := by
  intro s tick ha hi
  rw [exec_fall_idle s tick ha hi, advanceIndex_eq]

/-! ## The shift -/

/-- The shift at a payload index, byte by byte: the one whose range holds the index takes the bit. -/
theorem shiftIn_eq (d : DecodeState) (i : Nat) (b : Bool) (h : i ≤ 39) :
    shiftIn d i b = { d with
      humHi := if i < 8 then appendBit d.humHi b else d.humHi
      humLo := if 8 ≤ i ∧ i < 16 then appendBit d.humLo b else d.humLo
      tmpHi := if 16 ≤ i ∧ i < 24 then appendBit d.tmpHi b else d.tmpHi
      tmpLo := if 24 ≤ i ∧ i < 32 then appendBit d.tmpLo b else d.tmpLo
      cksAcc := if 32 ≤ i then appendBit d.cksAcc b else d.cksAcc } := by
  rcases shiftIn_cases d i b h with ⟨hi, e⟩ | ⟨hi, hi', e⟩ | ⟨hi, hi', e⟩ | ⟨hi, hi', e⟩ | ⟨hi, e⟩ <;> rw [e] <;>
    simp (disch := omega) only [if_pos, if_neg]

/-- A byte that has not received its eighth bit has its top bit clear, so the shift discards nothing. -/
theorem msb_of_lt_bitsInByte {i : Int} {k : Nat} {r : Byte} (hr : r.toNat < 2 ^ bitsInByte i k)
    (hi : i < (8 * k + 8 : Nat)) : r.msb = false := by
  have hroom : bitsInByte i k ≤ 7 := by
    unfold bitsInByte
    omega
  have hr7 : r.toNat < 2 ^ 7 := hr.trans_le (Nat.pow_le_pow_right (by omega) hroom)
  rw [BitVec.msb_eq_false_iff_two_mul_lt]
  omega

/-- Settles O19: the shift byte by byte, and the byte at the index is not full. -/
theorem shiftInWritesExactlyOneByte : Obligations.ShiftInWritesExactlyOneByte := by
  refine ⟨shiftIn_eq, fun s i hinv hi => ?_⟩
  have hb := hinv.bytesWithin
  rw [hi] at hb
  exact ⟨fun h => msb_of_lt_bitsInByte hb.humHi (by omega), fun ⟨_, h⟩ => msb_of_lt_bitsInByte hb.humLo (by omega),
    fun ⟨_, h⟩ => msb_of_lt_bitsInByte hb.tmpHi (by omega), fun ⟨_, h⟩ => msb_of_lt_bitsInByte hb.tmpLo (by omega),
    fun ⟨_, h⟩ => msb_of_lt_bitsInByte hb.cksAcc (by omega)⟩

/-- Settles O16: the edge shifts at its index, a natural number, and advances. -/
theorem payloadFallingEdgeShiftsOneByte : Obligations.PayloadFallingEdgeShiftsOneByte := by
  intro s tick ha h0 h39
  rw [exec_fall_payload s tick ha h0 h39, shiftIn_eq _ _ _ (by omega), advanceIndex_of_lt (by omega)]
  obtain ⟨n, hn⟩ := Int.eq_ofNat_of_zero_le h0
  simp [hn]

end Sys2Proof.Machine
end

section
/-! The completion of a frame: the values its bytes stand for, and the two outcomes of its last bit
(spec/41_frame_assembler.md R115, spec/42_checksum_value_decoder.md R140 to R145). -/

namespace Sys2Proof.Machine

/-! ## Value decoding -/

/-- The two bytes of the humidity are one big-endian number (R141). -/
theorem humRaw_toNat (hi lo : Byte) : (humRaw hi lo).toNat = 256 * hi.toNat + lo.toNat := by
  have hlo := lo.isLt
  rw [humRaw, BitVec.toNat_append, ← Nat.shiftLeft_add_eq_or_of_lt hlo, Nat.shiftLeft_eq]
  omega

/-- The magnitude is the number of the two bytes without the sign flag (R142). -/
theorem tmpMag_toNat (hi lo : Byte) : (tmpMag hi lo).toNat = hi.toNat % 128 * 256 + lo.toNat := by
  have hmask : (hi &&& 0x7F#8).toNat = hi.toNat % 128 := by
    rw [BitVec.toNat_and]
    exact Nat.and_two_pow_sub_one_eq_mod hi.toNat 7
  have hmag : tmpMag hi lo = humRaw (hi &&& 0x7F#8) lo := rfl
  rw [hmag, humRaw_toNat, hmask]
  omega

/-- The two bytes of the temperature are a sign and a magnitude (R142). -/
theorem tmpRaw_toInt (hi lo : Byte) : (tmpRaw hi lo).toInt = signedTenths hi lo := by
  have hmag := tmpMag_toNat hi lo
  have hlo := lo.isLt
  have hpos : (tmpMag hi lo).toInt = ((tmpMag hi lo).toNat : Int) := BitVec.toInt_eq_toNat_of_msb (tmpMag_msb hi lo)
  have hne : tmpMag hi lo ≠ BitVec.intMin 16 := by
    intro h
    have hmsb := tmpMag_msb hi lo
    rw [h] at hmsb
    exact absurd hmsb (by decide)
  unfold tmpRaw signedTenths
  rw [BitVec.msb_eq_decide]
  by_cases hsign : 128 ≤ hi.toNat
  · rw [if_pos (by simpa using hsign), if_pos hsign, BitVec.toInt_neg_of_ne_intMin hne, hpos, hmag]
  · rw [if_neg (by simpa using hsign), if_neg hsign, hpos, hmag, Nat.mod_eq_of_lt (by omega)]

/-! ## Validation -/

/-- `publish()` as one update (R143). -/
theorem publish_eq (s : State) :
    s.publish = { s with
      reading := {
        readingValid := true
        humidityTenths := humRaw s.dec.humHi s.dec.humLo
        temperatureTenths := tmpRaw s.dec.tmpHi s.dec.tmpLo
        validSince := s.wallNow }
      facade := if s.cfg.hasIndicatorLine then { s.facade with indicatorOut := false } else s.facade
      actions := if s.cfg.hasIndicatorLine then s.actions ++ [.indicator false] else s.actions } :=
  commandIndicator_eq _ false

/-- A valid frame is published (R140). -/
theorem validateAndPublish_of_valid {s : State} (h : frameValid s.dec = true) : s.validateAndPublish = s.publish :=
  if_pos h

/-- An invalid one counts a mismatch (R140, R144). -/
theorem validateAndPublish_of_not_valid {s : State} (h : ¬ frameValid s.dec = true) :
    s.validateAndPublish = { s with errors := { s.errors with badChecksum := countUp s.errors.badChecksum } } := by
  rw [← satInc32_eq_countUp]
  exact if_neg h

/-- Validation neither reads nor writes the index, so it may as well come after the advance. -/
theorem validateAndPublish_advance (s : State) : s.validateAndPublish.advance = s.advance.validateAndPublish := by
  by_cases h : frameValid s.dec = true
  · rw [validateAndPublish_of_valid h, validateAndPublish_of_valid (s := s.advance) h, publish_eq, publish_eq]
    rfl
  · rw [validateAndPublish_of_not_valid h, validateAndPublish_of_not_valid (s := s.advance) h]
    rfl

/-! ## The last bit -/

/-- An accepted falling edge on the last payload bit validates the completed frame (R112, R115, R116). -/
theorem exec_fall_last_validates {s : State} {tick : Tick} (ha : s.facade.active = true)
    (hi : s.dec.bitIndex.toInt = 39) : exec (.fall tick) s = .next (completedFrame s tick).validateAndPublish := by
  have h40 : advanceIndex s.dec.bitIndex = 40#8 := by rw [advanceIndex_eq, hi]; rfl
  rw [exec_fall_last s tick ha hi, State.completeFrame, validateAndPublish_advance]
  simp [completedFrame, State.advance, State.command, State.clearMissing, h40]

/-- The completed frame is valid exactly if no pulse of it was long, the last one included, and its bytes add up. -/
theorem completedFrame_valid_iff (s : State) (tick : Tick) :
    frameValid (completedFrame s tick).dec = true ↔
      s.dec.poisoned = false ∧ pulseWidth s tick < 200 ∧
        sumMatches s.dec (appendBit s.dec.cksAcc (decide (50 ≤ pulseWidth s tick))) := by
  have hpoison : (completedFrame s tick).dec.poisoned = false ↔
      s.dec.poisoned = false ∧ pulseWidth s tick < 200 := by
    simp [completedFrame]
  rw [frameValid_iff, hpoison, and_comm, and_assoc]
  rfl

/-- Settles O17: the completed frame is valid and published; the values are the words of their numbers. -/
theorem lastBitOfAValidFramePublishesTheReading : Obligations.LastBitOfAValidFramePublishesTheReading := by
  intro s tick ha hi hpoison hw hsum
  have hv := (completedFrame_valid_iff s tick).mpr ⟨hpoison, hw, hsum⟩
  have hmark : (s.dec.poisoned || decide (200 ≤ pulseWidth s tick)) = s.dec.poisoned := by simp [hw]
  rw [exec_fall_last_validates ha hi, validateAndPublish_of_valid hv, publish_eq, ← humRaw_toNat, ← tmpRaw_toInt,
    BitVec.ofNat_toNat, BitVec.ofInt_toInt, BitVec.setWidth_eq]
  cases hl : s.cfg.hasIndicatorLine <;> simp [completedFrame, hl, hmark]

/-- Settles O18: the completed frame is invalid, so the mismatch is counted and nothing is published. -/
theorem lastBitOfAnInvalidFrameCountsAChecksumMismatch :
    Obligations.LastBitOfAnInvalidFrameCountsAChecksumMismatch := by
  intro s tick ha hi hbad
  have hv := mt (completedFrame_valid_iff s tick).mp hbad
  rw [exec_fall_last_validates ha hi, validateAndPublish_of_not_valid hv]
  rfl

end Sys2Proof.Machine
end

section
/-! Validation and publication on their own: the validity of a frame, the mismatch it may raise, the single way of writing
the Reading, and the values that a Reading stands for (spec/42_checksum_value_decoder.md R140 to R146). -/

namespace Sys2Proof.Machine

/-! ## Validity and mismatch -/

/-- Settles O27: the saturating increment is `countUp`. -/
theorem checksumMismatchOnlyCounts : Obligations.ChecksumMismatchOnlyCounts := fun s => by
  rw [← satInc32_eq_countUp]
  rfl

/-- Settles O25: the validity test in plain arithmetic, and the two branches it decides. -/
theorem validityIsTheSumAndNoPoison : Obligations.ValidityIsTheSumAndNoPoison :=
  ⟨frameValid_iff,
    fun s h => validateAndPublish_of_valid ((frameValid_iff s.dec).mpr h),
    fun s h => (validateAndPublish_of_not_valid (mt (frameValid_iff s.dec).mp h)).trans (checksumMismatchOnlyCounts s).symm⟩

/-! ## The one writer of the Reading -/

/-- An event leaves the Reading alone or writes what `publish()` writes. The bytes and the `wall_now` that `publish()` reads
are still those of the state after it: the last bit goes into the checksum byte, which no value is decoded from. -/
theorem did_reading {i : Instr} {s t : State} (d : Did s i t) : t.reading = s.reading ∨ t.reading = t.publish.reading := by
  cases d with
  | published tick =>
    right
    rw [publish_eq]
    rfl
  | _ => exact .inl rfl

/-- Settles O26: `publish()` as one update, and no event writes the Reading in another way. -/
theorem publishWritesTheReadingWhole : Obligations.PublishWritesTheReadingWhole :=
  ⟨publish_eq, fun _ _ _ h hne => (did_reading (did_of_exec h)).resolve_left hne⟩

/-! ## The values of a Reading -/

/-- A sign and a 15-bit magnitude reach 32767 on either side (R142). -/
theorem signedTenths_range (hi lo : Byte) : -32767 ≤ signedTenths hi lo ∧ signedTenths hi lo ≤ 32767 := by
  have hlo := lo.isLt
  unfold signedTenths
  split <;> omega

/-- Ten times the physical humidity is the register as a number: nothing is rounded (R141, R146). -/
theorem physicalHumidity_mul_ten (r : Reading) : physicalHumidity r * 10 = (r.humidityTenths.toNat : Rat) :=
  div_mul_cancel₀ _ (by norm_num)

/-- Ten times the physical temperature is the register as a signed number: nothing is rounded (R142, R146). -/
theorem physicalTemperature_mul_ten (r : Reading) : physicalTemperature r * 10 = (r.temperatureTenths.toInt : Rat) :=
  div_mul_cancel₀ _ (by norm_num)

/-- Settles O24: the numbers of the two registers, and a tenth of each as the physical value. -/
theorem valueDecodingIsExact : Obligations.ValueDecodingIsExact := by
  intro hi lo
  obtain ⟨hmin, hmax⟩ := signedTenths_range hi lo
  have hhum := humRaw_toNat hi lo
  have htmp := tmpRaw_toInt hi lo
  refine ⟨hhum, htmp, htmp ▸ hmin, htmp ▸ hmax, fun r hr => ?_, fun r hr => ?_⟩
  · rw [physicalHumidity_mul_ten, hr, hhum]
  · rw [physicalTemperature_mul_ten, hr, htmp]

end Sys2Proof.Machine
end

section
/-! The accepted timeout: a miss before bit 8, within the threshold or past it, and the two outcomes from bit 8 on
(spec/43_timeout_classifier.md R160 to R163, spec/44_recovery_fsm.md R180, R184, R185). -/

namespace Sys2Proof.Machine

/-! ## From bit 8 on -/

/-- Settles O32: the saturating increment is `countUp`. -/
theorem timeoutFromBitEightOnClearsTheStreak : Obligations.TimeoutFromBitEightOnClearsTheStreak := by
  intro s a ha hw hi
  rw [exec_timeout_later s a ha hw hi, satInc32_eq_countUp]

/-- No timeout, accepted or not, writes the Decode State or the Reading. -/
theorem did_timeout_keeps {a : BitVec 32} {s t : State} (d : Did s (.timeout a) t) :
    t.dec = s.dec ∧ t.reading = s.reading := by
  cases d <;> exact ⟨rfl, rfl⟩

/-- A timeout counts a short message from bit 8 on only. -/
theorem did_timeout_shortMessage {a : BitVec 32} {s t : State} (d : Did s (.timeout a) t)
    (hi : s.dec.bitIndex.toInt < 8) : t.errors.shortMessage = s.errors.shortMessage := by
  cases d with
  | timedOutLater _ _ _ h8 => omega
  | _ => rfl

/-- Settles O28: from bit 8 on the whole step is known; before it, what no timeout there writes. -/
theorem shortMessageAndCompleteClearTheStreak : Obligations.ShortMessageAndCompleteClearTheStreak := by
  refine ⟨fun s => ?_, fun s a ha hw => ?_⟩
  · rw [← satInc32_eq_countUp]
    rfl
  · rcases lt_or_ge s.dec.bitIndex.toInt 8 with hi | hi
    · obtain ⟨t, ht, d⟩ := exec_timeout_missing_did s a ha hw hi
      obtain ⟨hdec, hreading⟩ := did_timeout_keeps d
      exact ⟨t, ht, hdec, hreading, by omega, by omega, did_timeout_shortMessage d⟩
    · exact ⟨_, timeoutFromBitEightOnClearsTheStreak s a ha hw hi, rfl, rfl, fun ⟨_, h39⟩ => ⟨if_pos h39, rfl⟩,
        fun h39 => ⟨if_neg (by omega), rfl⟩, by omega⟩

/-! ## Before bit 8 -/

/-- An accepted timeout before bit 8 counts the miss: within the threshold the streak is one longer, past it the streak is
cleared and a recovery requested (R160, R161). -/
theorem exec_timeout_countedMiss {s : State} {a : BitVec 32} (ha : s.facade.active = true)
    (hw : s.facade.wdArmed = true) (hi : s.dec.bitIndex.toInt < 8) :
    exec (.timeout a) s = .next
      (if s.recovery.consecutiveMissing.toNat + 1 ≤ s.cfg.maxNoResponse.val then
        countedMiss s (BitVec.ofNat 8 (s.recovery.consecutiveMissing.toNat + 1))
      else (countedMiss s 0#8).requestRecovery.respond .ok 0#128) := by
  rw [exec_timeout_missing s a ha hw hi]
  rcases missedMessage_cases { s with
      facade := { s.facade with wdArmed := false }
      response := some ⟨.ok, 0#128⟩, actions := [.wdDisarm] } with ⟨hwithin, e⟩ | ⟨hpast, e⟩
  · rw [e, if_pos hwithin]
    rfl
  · rw [e, if_neg (Nat.not_le.mpr hpast)]
    rfl

/-- Settles O29: a miss within the threshold, the saturating increment being `countUp`. -/
theorem missingMessageLengthensTheStreak : Obligations.MissingMessageLengthensTheStreak := by
  intro s a ha hw hi hm
  rw [exec_timeout_countedMiss ha hw hi, if_pos hm, countedMiss, satInc32_eq_countUp]

/-- Settles O30: the requested recovery is the entry, for neither refusal applies. -/
theorem tooManyMissesStartTheRecovery : Obligations.TooManyMissesStartTheRecovery := by
  intro s a ha hw hi hm hp hr
  rw [exec_timeout_countedMiss ha hw hi, if_neg (Nat.not_le.mpr hm), ← satInc32_eq_countUp]
  rcases requestRecovery_cases (countedMiss s 0#8) with ⟨hp', _⟩ | ⟨_, hr', _⟩ | ⟨_, _, e⟩
  · exact absurd (hp.symm.trans hp') (by decide)
  · exact absurd hr hr'
  · rw [e]
    rfl

/-- Settles O31: the requested recovery is counted without a line, or else dropped. -/
theorem tooManyMissesWithoutANewPowerCycle : Obligations.TooManyMissesWithoutANewPowerCycle := by
  intro s a ha hw hi hm hno
  rw [exec_timeout_countedMiss ha hw hi, if_neg (Nat.not_le.mpr hm), ← satInc32_eq_countUp, ← satInc32_eq_countUp]
  rcases requestRecovery_cases (countedMiss s 0#8) with ⟨hp, e⟩ | ⟨hp, _, e⟩ | ⟨hp, hr, _⟩
  · have hline : s.cfg.hasPowerLine = false := hp
    rw [e, hline]
    rfl
  · have hline : s.cfg.hasPowerLine = true := hp
    rw [e, hline]
    rfl
  · rcases hno with hp' | hr'
    · exact absurd (hp'.symm.trans hp) (by decide)
    · exact absurd hr hr'

/-! ## A streak of misses -/

/-- The watchdog armed again. -/
def rearmed (t : State) : State := { t with facade := { t.facade with wdArmed := true } }

/-- `t` is `s` after `k` misses in a row from a cleared streak, as far as a further timeout looks at it. -/
structure MissedInARow (s : State) (k : Nat) (t : State) : Prop where
  cfg      : t.cfg = s.cfg
  dec      : t.dec = s.dec
  active   : t.facade.active = true
  recovery : t.recovery = { consecutiveMissing := BitVec.ofNat 8 k, recPhase := .idle, powered := true }

/-- Up to the threshold the register holds the number of misses: the threshold is below 255 (R7, D11). -/
theorem MissedInARow.streak {s t : State} {k : Nat} (h : MissedInARow s k t) (hk : k ≤ s.cfg.maxNoResponse.val) :
    t.recovery.consecutiveMissing.toNat = k := by
  have hmax := s.cfg.maxNoResponse.isLt
  rw [h.recovery, BitVec.toNat_ofNat, Nat.mod_eq_of_lt (by omega)]

/-- Below the threshold one more miss only lengthens the streak. -/
theorem MissedInARow.next {s t u : State} {k : Nat} {a : BitVec 32} (h : MissedInARow s k t)
    (hi : s.dec.bitIndex.toInt < 8) (hk : k + 1 ≤ s.cfg.maxNoResponse.val)
    (hu : exec (.timeout a) (rearmed t) = .next u) : MissedInARow s (k + 1) u := by
  have hstreak := h.streak (by omega)
  rw [exec_timeout_countedMiss (s := rearmed t) h.active rfl (by simpa [rearmed, h.dec] using hi),
    if_pos (by simpa [rearmed, hstreak, h.cfg] using hk)] at hu
  cases hu
  refine ⟨h.cfg, h.dec, h.active, ?_⟩
  calc (countedMiss (rearmed t) _).recovery
      = { t.recovery with consecutiveMissing := BitVec.ofNat 8 (t.recovery.consecutiveMissing.toNat + 1) } := rfl
    _ = { consecutiveMissing := BitVec.ofNat 8 (k + 1), recPhase := .idle, powered := true } := by
      rw [hstreak, h.recovery]

/-- At the threshold one more miss starts the power cycle, where there is a power line. -/
theorem MissedInARow.fires {s t u : State} {a : BitVec 32} (h : MissedInARow s s.cfg.maxNoResponse.val t)
    (hi : s.dec.bitIndex.toInt < 8) (hp : s.cfg.hasPowerLine = true)
    (hu : exec (.timeout a) (rearmed t) = .next u) :
    u.recovery = { consecutiveMissing := 0#8, recPhase := .offSettle, powered := false } := by
  have hstreak := h.streak (le_refl _)
  rw [tooManyMissesStartTheRecovery (rearmed t) a h.active rfl (by simpa [rearmed, h.dec] using hi)
    (by simp [rearmed, hstreak, h.cfg]) (by simpa [rearmed, h.cfg] using hp) (by simp [rearmed, h.recovery])] at hu
  cases hu
  rfl

/-- Settles O33, by induction on the number of misses up to the threshold. -/
theorem recoveryFiresExactlyAfterTheThreshold : Obligations.RecoveryFiresExactlyAfterTheThreshold := by
  intro s run ha hi hp hr h0 hrun
  have hmissed (k : Nat) (hk : k ≤ s.cfg.maxNoResponse.val) : MissedInARow s k (run k) := by
    induction k with
    | zero =>
      rw [h0]
      exact ⟨rfl, rfl, ha, hr⟩
    | succ k ih => exact (ih (by omega)).next hi hk (hrun k (by omega))
  exact ⟨fun k hk => (hmissed k hk).recovery, (hmissed _ (le_refl _)).fires hi hp (hrun _ (le_refl _))⟩

end Sys2Proof.Machine
end

section
/-! The recovery sequence: its two settling delays, the table of its transitions, and the triggers it turns away
(spec/44_recovery_fsm.md R180 to R188, spec/45_channel_facade.md R200). -/

namespace Sys2Proof.Machine

/-! ## SETTLE_DONE -/

/-- Settles O34: `restorePower` at the start of a step, its two actions the only ones of the step. -/
theorem firstSettlingDelayEndsWithPowerOn : Obligations.FirstSettlingDelayEndsWithPowerOn :=
  fun s a hr => exec_settleDone_offSettle s a hr

/-- Settles O35: `finishRecovery`, the saturating increment being `countUp`. -/
theorem secondSettlingDelayEndsTheRecovery : Obligations.SecondSettlingDelayEndsTheRecovery := by
  intro s a hr
  rw [exec_settleDone_onSettle s a hr, ← satInc32_eq_countUp]
  rfl

/-! ## The table of transitions -/

/-- Settles O53: of all that an event can do only three things write the phase, each from the phase its guard names. -/
theorem recoveryPhaseTransitionsAreComplete : Obligations.RecoveryPhaseTransitionsAreComplete := by
  intro i s t h hne
  cases did_of_exec h with
  | recoveryStarted a ha hw hi hm hp hr => exact .inl ⟨hr, rfl, rfl, hp, rfl⟩
  | powerRestored a hr => exact .inr (.inl ⟨hr, rfl, rfl⟩)
  | recoveryFinished a hr => exact .inr (.inr ⟨hr, rfl, rfl, rfl⟩)
  | _ => exact absurd rfl hne

/-! ## Rejected triggers -/

/-- An event to which another status than OK is due is answered with it, and nothing else changes (R75, R247). -/
theorem exec_of_statusDue_ne_ok {i : Instr} {s : State} (hne : statusDue s i.kind ≠ .ok) :
    exec i s = .next (answeredOnly s (statusDue s i.kind) 0#128) := by
  obtain ⟨t, h, d⟩ := exec_did i s
  obtain ⟨data, hr⟩ := did_status d
  rw [h, everyOtherStatusIsACompleteNoOp i s t _ h hr hne]

/-- A trigger to which a rejection is due is answered with it, and nothing else changes. -/
theorem exec_trigReq_rejected {s : State} {st : Status} (a : BitVec 32) (hdue : statusDue s .trigReq = st)
    (hne : st ≠ .ok) : exec (.trigReq a) s = .next (answeredOnly s st 0#128) := by
  subst hdue
  exact exec_of_statusDue_ne_ok hne

/-- Settles O37: the status due to a trigger is that of the first of the three tests that fails. -/
theorem rejectedTriggerIsACompleteNoOp : Obligations.RejectedTriggerIsACompleteNoOp := by
  refine fun s a => ⟨fun ha => ?inactive, fun ha hp => ?unpowered, fun ha hp ht => ?busy⟩
  case inactive => exact exec_trigReq_rejected a (by simp [statusDue, ha]) (by decide)
  case unpowered => exact exec_trigReq_rejected a (by simp [statusDue, ha, hp]) (by decide)
  case busy => exact exec_trigReq_rejected a (by simp [statusDue, ha, hp, ht]) (by decide)

end Sys2Proof.Machine
end

section
/-! The facade's commands that do something, and the data of the host reads: the Reading, the four counters and the status
word, each field at its place (spec/45_channel_facade.md R200 to R207). -/

namespace Sys2Proof.Machine

/-! ## Commands -/

/-- Settles O36: the three rejections are excluded, and where the channel has an indicator line its mirror is set. -/
theorem acceptedTriggerStartsTheWindow : Obligations.AcceptedTriggerStartsTheWindow := by
  intro s a ha hp ht
  rcases exec_trigReq_cases s a with ⟨hinactive, _⟩ | ⟨_, hunpowered, _⟩ | ⟨_, _, hbusy, _⟩ | ⟨_, _, _, h⟩
  · cases ha.symm.trans hinactive
  · cases hp.symm.trans hunpowered
  · cases ht.symm.trans hbusy
  · simp only [h, Bool.if_true_left, Bool.decide_eq_true, Bool.or_comm]

/-- Settles O38: the end of the window, its watchdog mirror set exactly while active. -/
theorem endOfTheWindowReleasesTheLineAndArms : Obligations.EndOfTheWindowReleasesTheLineAndArms := by
  intro s a ht
  simp only [exec_trigDone_asserting s a ht, Bool.if_true_left, Bool.decide_eq_true, Bool.or_comm]

/-- Settles O39: the two cases of SHUTDOWN. -/
theorem shutdownDisarmsAndUnsubscribesOnce : Obligations.ShutdownDisarmsAndUnsubscribesOnce := by
  intro s a
  rcases exec_shutdown_cases s a with ⟨ha, h⟩ | ⟨ha, h⟩
  · exact ⟨fun _ => h, (nomatch ha.symm.trans ·)⟩
  · exact ⟨(nomatch ha.symm.trans ·), fun _ => h⟩

/-! ## Reads of the Reading -/

/-- A read is answered with what `RdPort` holds for its selector, and nothing else changes (R57, R62). -/
theorem exec_read_of_rdPort {s : State} {sel : ReadSel} {st : Status} {d : Data} (a : BitVec 32)
    (h : s.rdPort sel = ⟨st, d⟩) : exec (Instr.ofKind sel.kind a) s = .next (answeredOnly s st d) := by
  rw [exec_read, read_eq, h]

/-- A part of a valid Reading is read as it is. -/
theorem guardedRead_of_valid {r : Reading} (h : r.readingValid = true) (d : Data) : guardedRead r d = ⟨.ok, d⟩ :=
  if_pos h

/-- A part of a Reading that never was valid is not read (D9). -/
theorem guardedRead_of_not_valid {r : Reading} (h : r.readingValid = false) (d : Data) :
    guardedRead r d = ⟨.neverValid, 0#128⟩ := by
  simp [guardedRead, h]

/-- The age of a Reading is the integer difference of the two clock values, reduced modulo the clock's range (R204). -/
theorem staleness_data (now since : Wall) :
    (now - since).setWidth 128 = BitVec.ofInt 128 (((now.toNat : Int) - (since.toNat : Int)) % 2 ^ 64) := by
  have hage : ((now - since).toNat : Int) = ((now.toNat : Int) - (since.toNat : Int)) % 2 ^ 64 := by
    have hnow := now.isLt
    have hsince := since.isLt
    rw [BitVec.toNat_sub]
    omega
  rw [← hage, BitVec.ofInt_natCast, BitVec.ofNat_toNat]

/-- A 16-bit field alone at the bottom of the data, all other bits 0. -/
theorem setWidth_data (x : BitVec 16) : x.setWidth 128 = 0#112 ++ x :=
  BitVec.setWidth_eq_append (by decide)

/-- Settles O40: `RdPort` of a valid Reading, each part in the form the rule gives it. -/
theorem readsOfAValidReadingReturnIt : Obligations.ReadsOfAValidReadingReturnIt := by
  intro s a hv
  refine ⟨exec_read_of_rdPort (sel := .humidity) a ?hum, exec_read_of_rdPort (sel := .temperature) a ?tmp,
    exec_read_of_rdPort (sel := .staleness) a ?age⟩
  case hum => rw [State.rdPort, guardedRead_of_valid hv, BitVec.ofNat_toNat]
  case tmp => rw [State.rdPort, guardedRead_of_valid hv, setWidth_data]
  case age => rw [State.rdPort, guardedRead_of_valid hv, staleness_data]

/-- Settles O41: `RdPort` guards each of the three parts of the Reading. -/
theorem readsBeforeAnyValidFrameSaySo : Obligations.ReadsBeforeAnyValidFrameSaySo :=
  fun _ a hv =>
    ⟨exec_read_of_rdPort (sel := .humidity) a (guardedRead_of_not_valid hv _),
      exec_read_of_rdPort (sel := .temperature) a (guardedRead_of_not_valid hv _),
      exec_read_of_rdPort (sel := .staleness) a (guardedRead_of_not_valid hv _)⟩

/-! ## The four counters -/

/-- The four counters stand in ascending 32-bit fields (R205, D41). -/
theorem diagnosticsData_fields (e : ErrorCounters) :
    (diagnosticsData e).extractLsb' 0 32 = e.badChecksum ∧ (diagnosticsData e).extractLsb' 32 32 = e.shortMessage ∧
    (diagnosticsData e).extractLsb' 64 32 = e.missingMessage ∧ (diagnosticsData e).extractLsb' 96 32 = e.sensorReset := by
  refine ⟨?_, ?_, ?_, ?_⟩ <;>
    simp (disch := omega) only [diagnosticsData, Laws.extract_in_lower, Laws.extract_upper, BitVec.extractLsb'_eq_self]

/-- Settles O42: `RdPort` of the diagnostics, field by field. -/
theorem diagnosticsReturnTheFourCounters : Obligations.DiagnosticsReturnTheFourCounters :=
  fun s a => ⟨diagnosticsData s.errors, exec_read_of_rdPort (sel := .diagnostics) a rfl, diagnosticsData_fields s.errors⟩

/-! ## The status word -/

/-- The lowest bit of the upper of two fields. -/
theorem bit_at_boundary {m n : Nat} (c : BitVec m) (a : BitVec n) : (c ++ a).getLsbD n = c.getLsbD 0 :=
  Laws.bit_in_upper c a 0

/-- The bit of `trig_phase` says whether the trigger window is running (R34). -/
theorem trigPhase_code_bit (p : TrigPhase) : p.code.getLsbD 0 = true ↔ p = .asserting := by
  cases p <;> decide

section
variable (d : DecodeState) (r : Reading) (v : RecoveryState) (f : FacadeState)

/-- The flags stand in bits 0 to 2, 6 and 7 (R206, D24). -/
theorem statusData_flags :
    (statusData d r v f).getLsbD 0 = v.powered ∧ (statusData d r v f).getLsbD 1 = f.active ∧
    (statusData d r v f).getLsbD 2 = f.wdArmed ∧ (statusData d r v f).getLsbD 6 = d.poisoned ∧
    (statusData d r v f).getLsbD 7 = r.readingValid := by
  refine ⟨?_, ?_, ?_, ?_, ?_⟩ <;>
    simp (disch := omega) only [statusData, Laws.bit_in_lower, bit_at_boundary, BitVec.getLsbD_ofBool, decide_true,
      Bool.true_and]

/-- The trigger window's phase stands in bit 3 (R206, D24). -/
theorem statusData_trigPhase : (statusData d r v f).getLsbD 3 = f.trigPhase.code.getLsbD 0 := by
  simp (disch := omega) only [statusData, Laws.bit_in_lower, bit_at_boundary]

/-- The recovery's phase, the sequencer and the streak stand in bits 4, 8 and 16 on, and nothing above (R206, D24). -/
theorem statusData_fields :
    (statusData d r v f).extractLsb' 4 2 = v.recPhase.code ∧ (statusData d r v f).extractLsb' 8 8 = d.bitIndex ∧
    (statusData d r v f).extractLsb' 16 8 = v.consecutiveMissing ∧
    (statusData d r v f).extractLsb' 24 104 = 0#104 := by
  refine ⟨?_, ?_, ?_, ?_⟩ <;>
    simp (disch := omega) only [statusData, Laws.extract_in_lower, Laws.extract_upper]

end

/-- Settles O43: `RdPort` of the status, the flags, phases and fields of its word taken together. -/
theorem statusReturnsTheFlagsAndTheSequencer : Obligations.StatusReturnsTheFlagsAndTheSequencer := by
  intro s a
  obtain ⟨hpowered, hactive, harmed, hpoisoned, hvalid⟩ := statusData_flags s.dec s.reading s.recovery s.facade
  obtain ⟨hrec, hindex, hstreak, hupper⟩ := statusData_fields s.dec s.reading s.recovery s.facade
  have htrig : (statusData s.dec s.reading s.recovery s.facade).getLsbD 3 = true ↔ s.facade.trigPhase = .asserting := by
    rw [statusData_trigPhase, trigPhase_code_bit]
  exact ⟨_, exec_read_of_rdPort (sel := .status) a rfl, hpowered, hactive, harmed, htrig, hrec, hpoisoned, hvalid,
    hindex, hstreak, hupper⟩

end Sys2Proof.Machine
end

section
/-! No condition and no state stops the block (spec/60_exceptions.md R247). -/

namespace Sys2Proof.Machine

/-- Settles O45: the step answers in each case of what the port presents, on an event because every event does one of the
things that `Did` lists. -/
theorem noStateStopsTheBlock : Obligations.NoStateStopsTheBlock :=
  step_answers

end Sys2Proof.Machine
end

section
/-! Hardware reset, and what no step writes: the configuration and the input fields (spec/70_reset_and_hazards.md R280, R281;
spec/00_scope.md R9). -/

namespace Sys2Proof.Machine

/-! ## Hardware reset -/

/-- Settles O9: the step with `rst` high is hardware reset, and it leaves both phases idle, which masks the two timers'
events. -/
theorem hardwareResetOverridesEverything : Obligations.HardwareResetOverridesEverything := by
  intro s p rest hs hr
  refine ⟨step_of_rst_high hs hr, ?_⟩
  rintro t a rfl
  have htrig : masked { State.resetWith s.cfg with pending := rest } (.trigDone a) = true := rfl
  have hsettle : masked { State.resetWith s.cfg with pending := rest } (.settleDone a) = true := rfl
  exact ⟨exec_of_masked htrig, exec_of_masked hsettle⟩

/-! ## The configuration and the inputs -/

/-- Whatever an event does, it writes groups of the record and the answer only: in every case of `Did` the next state is
`s` with other values in those fields. -/
theorem did_keeps_inputs {i : Instr} {s t : State} (d : Did s i t) :
    t.cfg = s.cfg ∧ t.wallNow = s.wallNow ∧ t.pending = s.pending := by
  cases d <;> exact ⟨rfl, rfl, rfl⟩

/-- A step keeps the configuration and takes the first pending sample, if there is one. An event finds the sample already
taken; hardware reset restores the record in the same configuration. -/
theorem step_keeps_cfg_takes_sample {s t : State} (h : step s = .next t) :
    t.cfg = s.cfg ∧ t.pending = s.pending.tail := by
  rcases step_cases h with ⟨hp, rfl⟩ | ⟨p, rest, hp, _, rfl⟩ | ⟨p, rest, hp, _, _, d⟩ | ⟨p, rest, hp, _, _, rfl⟩
  · exact ⟨rfl, by rw [hp, List.tail_nil]⟩
  · exact ⟨rfl, by rw [hp, List.tail_cons]⟩
  · obtain ⟨hcfg, _, hpending⟩ := did_keeps_inputs d
    exact ⟨hcfg, by rw [hpending, hp, List.tail_cons]⟩
  · exact ⟨rfl, by rw [hp, List.tail_cons]⟩

/-- Settles O57: what every event keeps, and what every step keeps and takes. -/
theorem inputsAndConfigurationAreReadOnly : Obligations.InputsAndConfigurationAreReadOnly :=
  ⟨fun _ _ _ h => did_keeps_inputs (did_of_exec h), fun _ _ => step_keeps_cfg_takes_sample⟩

end Sys2Proof.Machine
end
